-- ==== Sys2Proof/Word.lean ====
section
/-! DEFINITION. The two bit-vector types of the machine (spec rule R7): a byte and a word. -/

namespace Sys2Proof

/-- An 8-bit unsigned value (R7). -/
abbrev Byte := BitVec 8

/-- A 32-bit unsigned value (R7); `+` on it is addition modulo 2^32 (R8). -/
abbrev Word := BitVec 32

end Sys2Proof
end

