-- ==== Sys2Proof/Config.lean ====
section
/-! DEFINITION. What an instance fixes (R5), the constants of the hardware, and the free values the
spec leaves open (I1, I4). -/

namespace Sys2Proof

/-- The parameters of one engine instance (R5: "the model takes it as an argument"). They stand in
the state because a step takes nothing else; no step changes them. Statements over every state are
statements over every parameter. -/
structure Params where
  /-- `DMEM_SIZE`, bytes of local data memory; read back through CAP_DMEM (R23). -/
  dmemSize : Nat
  /-- `B58_MAX`, the codec's input capacity; read back through CAP_B58 (R23). -/
  b58Max : Nat
  /-- `BASE`, the host address of the register window (R16). No rule of the engine reads it. -/
  base : Nat
deriving DecidableEq, Repr

/-- The default values of R5. DESIGN CHOICE (log 8, unsafe): the spec gives `BASE` no default; 0 here. -/
def Params.default : Params := { dmemSize := 4096, b58Max := 256, base := 0 }

/-- `ID_VALUE`, ASCII "DRC1" (R5, R16). -/
def Config.idValue : Word := 0x44524331

/-- `WIF_VERSION` (R5, R109). -/
def Config.wifVersion : Byte := 0x80

/-- The external Curve Engine's answer on a scalar (R6, I4): a free value. `validateScalar` adds the
one property the spec gives it, that the zero scalar is refused (log 6). -/
opaque Config.curveAnswer : List Byte → Bool

/-- What an UNWRITTEN byte reads as (R31, I1): a free value for every draw (first argument) and every
DMEM address (second argument) (log 4). -/
opaque Config.freeByte : Nat → Nat → Byte

end Sys2Proof
end

