-- ==== Sys2Proof/Syntax.lean ====
section
/-! DEFINITION. The commands: one constructor per row of spec/opcode_table.json (R48). The only operands
in a command word are the MOD bits of R47; all others are registers, read when the command runs (R46). -/

namespace Sys2Proof

/-- The twenty-three commands of R48. -/
inductive Instr where
  /-- 0x00 -/
  | nop
  /-- 0x01 -/
  | sha256Init
  /-- 0x02 -/
  | sha256Update
  /-- 0x03 -/
  | sha256Final
  /-- 0x04 -/
  | sha256
  /-- 0x05 -/
  | sha256d
  /-- 0x06 -/
  | hmacSha256
  /-- 0x11 -/
  | rmd160Init
  /-- 0x12 -/
  | rmd160Update
  /-- 0x13 -/
  | rmd160Final
  /-- 0x14 -/
  | rmd160
  /-- 0x15 -/
  | hash160
  /-- 0x21 -/
  | b58Enc
  /-- 0x22 -/
  | b58Dec
  /-- 0x23 -/
  | b58Checksum
  /-- 0x24 -/
  | b58chkEnc
  /-- 0x25 -/
  | b58chkDec
  /-- 0x31; MOD bit 0 is C, append the compressed marker. -/
  | wifEnc (compressed : Bool)
  /-- 0x32 -/
  | wifDec
  /-- 0x33; MOD bit 0 is LEGACY, no 0x00 before a high-bit value. -/
  | derEnc (legacy : Bool)
  /-- 0x34 -/
  | derDec
  /-- 0x35; MOD bit 0 is V, the record's valid byte, and MOD bit 1 is C, its compressed byte. -/
  | keyrecEnc (valid compressed : Bool)
  /-- 0x36 -/
  | keyrecDec
deriving DecidableEq, Repr

end Sys2Proof
end

