-- ==== Sys2Proof/WellFormed.lean ====
section
/-! DEFINITION. What is well formed: a command word (R49), the parameters of an instance (R5), and an
instruction as syntax. -/

namespace Sys2Proof

/-- RSV, bits 31:16 of a command word (R45). -/
def rsvField (v : Word) : BitVec 16 := v.extractLsb' 16 16

/-- MOD, bits 15:8 of a command word (R45). -/
def modField (v : Word) : Byte := v.extractLsb' 8 8

/-- OP, bits 7:0 of a command word (R45). -/
def opField (v : Word) : Byte := v.extractLsb' 0 8

/-- The OP values R48 assigns, by its ranges. -/
def opAssigned (op : Byte) : Bool :=
  (op.toNat ≤ 0x06) || (0x11 ≤ op.toNat && op.toNat ≤ 0x15) ||
  (0x21 ≤ op.toNat && op.toNat ≤ 0x25) || (0x31 ≤ op.toNat && op.toNat ≤ 0x36)

/-- The MOD bits an OP defines (R49's MODMASK). -/
def modMask (op : Byte) : Byte :=
  if op = 0x31 then 0x01 else if op = 0x33 then 0x01 else if op = 0x35 then 0x03 else 0x00

/-- R49: a command word is legal when RSV is zero, OP is assigned and MOD has no bit outside MODMASK. -/
def legalWord (v : Word) : Bool :=
  rsvField v == 0 && opAssigned (opField v) && (modField v &&& ~~~ modMask (opField v)) == 0

/-- A row of spec/opcode_table.json: a word `v` is the row's when `v & mask = match` (R49). -/
structure OpcodeRow where
  matchBits : Word
  mask : Word
deriving DecidableEq, Repr

/-- The rows of spec/opcode_table.json, in its order. -/
def opcodeRows : List OpcodeRow :=
  [⟨0x00000000, 0xFFFFFFFF⟩, ⟨0x00000001, 0xFFFFFFFF⟩, ⟨0x00000002, 0xFFFFFFFF⟩, ⟨0x00000003, 0xFFFFFFFF⟩,
   ⟨0x00000004, 0xFFFFFFFF⟩, ⟨0x00000005, 0xFFFFFFFF⟩, ⟨0x00000006, 0xFFFFFFFF⟩] ++
  [⟨0x00000011, 0xFFFFFFFF⟩, ⟨0x00000012, 0xFFFFFFFF⟩, ⟨0x00000013, 0xFFFFFFFF⟩, ⟨0x00000014, 0xFFFFFFFF⟩,
   ⟨0x00000015, 0xFFFFFFFF⟩] ++
  [⟨0x00000021, 0xFFFFFFFF⟩, ⟨0x00000022, 0xFFFFFFFF⟩, ⟨0x00000023, 0xFFFFFFFF⟩, ⟨0x00000024, 0xFFFFFFFF⟩,
   ⟨0x00000025, 0xFFFFFFFF⟩] ++
  [⟨0x00000031, 0xFFFFFEFF⟩, ⟨0x00000032, 0xFFFFFFFF⟩, ⟨0x00000033, 0xFFFFFEFF⟩, ⟨0x00000034, 0xFFFFFFFF⟩,
   ⟨0x00000035, 0xFFFFFCFF⟩, ⟨0x00000036, 0xFFFFFFFF⟩]

/-- An instruction as syntax has nothing to check: its MOD operands are single bits, so that R47's
"must be 0" bits have no place in it. -/
def Instr.wellFormed : Instr → Bool
  | .nop => true
  | .sha256Init => true
  | .sha256Update => true
  | .sha256Final => true
  | .sha256 => true
  | .sha256d => true
  | .hmacSha256 => true
  | .rmd160Init => true
  | .rmd160Update => true
  | .rmd160Final => true
  | .rmd160 => true
  | .hash160 => true
  | .b58Enc => true
  | .b58Dec => true
  | .b58Checksum => true
  | .b58chkEnc => true
  | .b58chkDec => true
  | .wifEnc _ => true
  | .wifDec => true
  | .derEnc _ => true
  | .derDec => true
  | .keyrecEnc _ _ => true
  | .keyrecDec => true

/-- The legal ranges of R5: `DMEM_SIZE` a multiple of 4 in 256–4096, `B58_MAX` in 64–`DMEM_SIZE`, and
`BASE` 8 KiB aligned. -/
def Params.wellFormed (p : Params) : Bool :=
  p.dmemSize % 4 == 0 && decide (256 ≤ p.dmemSize) && decide (p.dmemSize ≤ 4096) &&
  decide (64 ≤ p.b58Max) && decide (p.b58Max ≤ p.dmemSize) && p.base % 8192 == 0

end Sys2Proof
end

