-- ==== Sys2Proof/Decode.lean ====
section
/-! DEFINITION. From a command word to a command (R45–R51), total and rejecting by name, and back. -/

namespace Sys2Proof

/-- Why a command word is illegal (R50). Executing any of them raises ILLEGAL_CMD. -/
inductive Illegal where
  /-- RSV is not zero. -/
  | reservedBits
  /-- OP is not in the table of R48. -/
  | unassignedOp
  /-- MOD has a bit outside MODMASK(OP). -/
  | modOutsideMask
deriving DecidableEq, Repr

/-- A command that defines no MOD bit: MOD must be 0x00 (R47). -/
def plainCommand (md : Byte) (i : Instr) : Except Illegal Instr :=
  if md = 0 then .ok i else .error .modOutsideMask

/-- A command that defines the MOD bits of `mask` (R47): the others must be 0. -/
def modCommand (mask md : Byte) (i : Instr) : Except Illegal Instr :=
  if md &&& ~~~ mask = 0 then .ok i else .error .modOutsideMask

/-- The opcode map of R48, with the MOD bits of R47. -/
def decodeOp (op md : Byte) : Except Illegal Instr :=
  match op with
  | 0x00#8 => plainCommand md .nop
  | 0x01#8 => plainCommand md .sha256Init
  | 0x02#8 => plainCommand md .sha256Update
  | 0x03#8 => plainCommand md .sha256Final
  | 0x04#8 => plainCommand md .sha256
  | 0x05#8 => plainCommand md .sha256d
  | 0x06#8 => plainCommand md .hmacSha256
  | 0x11#8 => plainCommand md .rmd160Init
  | 0x12#8 => plainCommand md .rmd160Update
  | 0x13#8 => plainCommand md .rmd160Final
  | 0x14#8 => plainCommand md .rmd160
  | 0x15#8 => plainCommand md .hash160
  | 0x21#8 => plainCommand md .b58Enc
  | 0x22#8 => plainCommand md .b58Dec
  | 0x23#8 => plainCommand md .b58Checksum
  | 0x24#8 => plainCommand md .b58chkEnc
  | 0x25#8 => plainCommand md .b58chkDec
  | 0x31#8 => modCommand 0x01 md (.wifEnc (md.getLsbD 0))
  | 0x32#8 => plainCommand md .wifDec
  | 0x33#8 => modCommand 0x01 md (.derEnc (md.getLsbD 0))
  | 0x34#8 => plainCommand md .derDec
  | 0x35#8 => modCommand 0x03 md (.keyrecEnc (md.getLsbD 0) (md.getLsbD 1))
  | 0x36#8 => plainCommand md .keyrecDec
  | _ => .error .unassignedOp

/-- The command a word written to CMD stands for (R49, R51), or why it is illegal (R50). -/
def decode (v : Word) : Except Illegal Instr :=
  if rsvField v = 0 then decodeOp (opField v) (modField v) else .error .reservedBits

/-- OP of a command (R48). -/
def encodeOp : Instr → Byte
  | .nop => 0x00
  | .sha256Init => 0x01
  | .sha256Update => 0x02
  | .sha256Final => 0x03
  | .sha256 => 0x04
  | .sha256d => 0x05
  | .hmacSha256 => 0x06
  | .rmd160Init => 0x11
  | .rmd160Update => 0x12
  | .rmd160Final => 0x13
  | .rmd160 => 0x14
  | .hash160 => 0x15
  | .b58Enc => 0x21
  | .b58Dec => 0x22
  | .b58Checksum => 0x23
  | .b58chkEnc => 0x24
  | .b58chkDec => 0x25
  | .wifEnc _ => 0x31
  | .wifDec => 0x32
  | .derEnc _ => 0x33
  | .derDec => 0x34
  | .keyrecEnc _ _ => 0x35
  | .keyrecDec => 0x36

/-- MOD of a command (R47): the suffixes .C, .LEGACY and .V of R52. -/
def encodeMod : Instr → Byte
  | .wifEnc c => (BitVec.ofBool c).setWidth 8
  | .derEnc l => (BitVec.ofBool l).setWidth 8
  | .keyrecEnc v c => (BitVec.ofBool c ++ BitVec.ofBool v).setWidth 8
  | .nop | .sha256Init | .sha256Update | .sha256Final | .sha256 | .sha256d | .hmacSha256
  | .rmd160Init | .rmd160Update | .rmd160Final | .rmd160 | .hash160
  | .b58Enc | .b58Dec | .b58Checksum | .b58chkEnc | .b58chkDec
  | .wifDec | .derDec | .keyrecDec => 0x00

/-- The command word of a command, RSV zero (R45). -/
def encode (i : Instr) : Word := (0x0000#16 ++ encodeMod i ++ encodeOp i : BitVec 32)

/-- The command the decoder reads from an opcode-table row's bits. A command is always one 32-bit write
(R51): the bits above `nbits` are 0, and a value that needs more than 32 bits is no command word. -/
def decodeTableWord (nbits w : Nat) : Option Instr :=
  let v := w % 2 ^ nbits
  if v < 2 ^ 32 then (decode (BitVec.ofNat 32 v)).toOption else none

end Sys2Proof
end

