-- ==== Sys2Proof/Machine/State.lean ====
section
/-! DEFINITION. The architectural state of one engine instance (R15), the host's accesses and their
responses, the reasons a step can stop, and the state after power-on reset (R143). -/

namespace Sys2Proof.Machine

/-- A byte offset in the 8 KiB register window (R16). -/
abbrev Offset := BitVec 13

/-- One host bus access (R14, R34), at an offset of the window. -/
inductive HostAccess where
  /-- an 8-bit read -/
  | read8 (off : Offset)
  /-- a 32-bit read -/
  | read32 (off : Offset)
  /-- an 8-bit write -/
  | write8 (off : Offset) (v : Byte)
  /-- a 32-bit write -/
  | write32 (off : Offset) (v : Word)
  /-- a 16-bit read: a bus error wherever it goes (R34) -/
  | read16 (off : Offset)
  /-- a 16-bit write: a bus error wherever it goes (R34) -/
  | write16 (off : Offset) (v : BitVec 16)
  /-- an access of any other width: a bus error (R34, D5) -/
  | otherWidth (off : Offset)
deriving DecidableEq, Repr

/-- What the bus answered to the access performed last. The model's own field (log 11). -/
inductive Response where
  /-- no access has been performed -/
  | none
  /-- a write, acknowledged with all of its effects done (R41) -/
  | ack
  /-- the data of an 8-bit read -/
  | byte (b : Byte)
  /-- the data of a 32-bit read -/
  | word (w : Word)
deriving DecidableEq, Repr

/-- The error codes of R123. The 8-bit values it does not list are never produced (I14). -/
inductive ErrCode where
  | ok | illegalCmd | misuse | length | rangeIn | b58Char | chkShort | chkMismatch | derFormat | rangeOut
deriving DecidableEq, Repr

/-- The import diagnostics of R22. The 4-bit values it does not list are never produced (I14). -/
inductive Diag where
  | ok | b58Char | chkShort | chkMismatch | wifLength | wifVersion | wifMarker | scalarInvalid | storedInvalid
deriving DecidableEq, Repr

/-- The phase of a streaming context (R15). -/
inductive Phase where
  | active | finalized
deriving DecidableEq, Repr

/-- The interrupt enables of CTRL (R17). -/
structure Ctrl where
  ieDone : Bool
  ieErr : Bool
deriving DecidableEq, Repr

/-- The stored part of STATUS (R18). SHA_FIN and RMD_FIN are derived from the phases. -/
structure Status where
  done : Bool
  err : Bool
  errcode : ErrCode
deriving DecidableEq, Repr

/-- The operand registers (R20). -/
structure Operands where
  srcAddr : Word
  srcLen : Word
  dstAddr : Word
  auxAddr : Word
  auxLen : Word
deriving DecidableEq, Repr

/-- RES_FLAGS (R22). -/
structure ResFlags where
  keyValid : Bool
  keyCompressed : Bool
  diag : Diag
deriving DecidableEq, Repr

/-- A streaming hash context (R15, R25, R26), over the type `α` of its chaining words. -/
structure HashCtx (α : Type) where
  /-- the chaining value -/
  H : α
  /-- the buffered bytes, 0 to 63 of them; the count is the length -/
  buf : List Byte
  /-- total message bits absorbed, modulo 2^64 -/
  bitlen : BitVec 64
  phase : Phase
deriving DecidableEq, Repr

/-- DMEM (R31): the written bytes with their addresses, addresses strictly rising. An address with no
entry is UNWRITTEN. `Memory.wf` (Ops) states the form. -/
abbrev Memory := List Host.Cell

/-- R15's record, the instance's parameters, and the model's own three fields. -/
structure State where
  /-- the parameters of R5, which no step changes -/
  params : Params
  ctrl : Ctrl
  status : Status
  operands : Operands
  /-- RES_LEN (R21) -/
  resLen : Word
  resFlags : ResFlags
  /-- the Hash-256 streaming context (R25) -/
  sha : HashCtx Words8
  /-- the Hash-160 streaming context (R26) -/
  rmd : HashCtx Words5
  dmem : Memory
  /-- MODEL'S OWN (log 1): the host accesses still to be delivered, in bus order (R13, R40) -/
  hostQueue : List HostAccess
  /-- MODEL'S OWN (log 11): the bus response of the access performed last -/
  response : Response
  /-- MODEL'S OWN (log 5): which draw the next access makes from the free bytes of UNWRITTEN addresses -/
  draws : Nat
deriving DecidableEq, Repr

/-- A host access the bus does not perform (R34, R131). I2's treatment: "a fault of the host agent".
Raised by `performAccess` only. Safe: the hardware leaves its state as it was and goes on, the model
stops. -/
inductive Fault where
  /-- a 16-bit access, or one of any width but 8 and 32 bits (safe) -/
  | busWidth
  /-- an 8-bit access to a register offset (safe) -/
  | busByteRegister
  /-- a 32-bit access at an offset that is no multiple of 4 (safe) -/
  | busMisaligned
deriving DecidableEq, Repr

/-- Why an instruction would have no meaning. Every command of the table has one. -/
inductive Refusal where
  /-- the instruction is not modelled yet; raised by `exec` only, and by no arm of it (safe) -/
  | notModelled (mnemonic : String)
deriving DecidableEq, Repr

/-- RES_FLAGS = 0x00000000. -/
def ResFlags.zero : ResFlags := { keyValid := false, keyCompressed := false, diag := .ok }

/-- The `Reset()` state of a hash engine with initial value `iv` (R71, R85). -/
def HashCtx.init {α : Type} (iv : α) : HashCtx α := { H := iv, buf := [], bitlen := 0, phase := .active }

/-- The power-on column of R143, for an instance with parameters `p`: the engine idle, nothing written to
DMEM, and (the model's own fields) no access waiting, none answered, no draw made. -/
def State.powerOn (p : Params) : State where
  params := p
  ctrl := { ieDone := false, ieErr := false }
  status := { done := false, err := false, errcode := .ok }
  operands := { srcAddr := 0, srcLen := 0, dstAddr := 0, auxAddr := 0, auxLen := 0 }
  resLen := 0
  resFlags := ResFlags.zero
  sha := HashCtx.init iv256
  rmd := HashCtx.init iv160
  dmem := []
  hostQueue := []
  response := .none
  draws := 0

/-- The machine right after power-on reset (R141, R143), with the default parameters of R5. -/
def State.reset : State := State.powerOn Params.default

end Sys2Proof.Machine
end

