-- ==== Sys2Proof/Machine/Operands.lean ====
section
/-! DEFINITION. The operand forms (R46): which regions a command uses, its length limit (R55), and which
streaming context must be ACTIVE (R54). -/

namespace Sys2Proof.Machine

/-- One of the two streaming contexts. -/
inductive Stream where
  | sha | rmd
deriving DecidableEq, Repr

/-- The limit column of R46. -/
inductive LengthLimit where
  /-- none -/
  | any
  /-- SRC_LEN ≤ `B58_MAX` -/
  | b58Max
  /-- SRC_LEN ≤ `B58_MAX` − 4 -/
  | b58MaxLess4
  /-- SRC_LEN = n -/
  | exactly (n : Nat)
deriving DecidableEq, Repr

/-- One row of R46, with the phase check of R54. -/
structure Form where
  /-- the context that UPDATE and FINAL need ACTIVE -/
  needsActive : Option Stream := none
  limit : LengthLimit := .any
  /-- UsesSRC -/
  src : Bool := false
  /-- UsesAUX -/
  aux : Bool := false
  /-- HasDST -/
  dst : Bool := false
deriving DecidableEq, Repr

/-- The table of R46, row by row. -/
def operandForm : Instr → Form
  | .nop => {}
  | .sha256Init => {}
  | .sha256Update => { needsActive := some .sha, src := true }
  | .sha256Final => { needsActive := some .sha, dst := true }
  | .sha256 => { src := true, dst := true }
  | .sha256d => { src := true, dst := true }
  | .hmacSha256 => { src := true, aux := true, dst := true }
  | .rmd160Init => {}
  | .rmd160Update => { needsActive := some .rmd, src := true }
  | .rmd160Final => { needsActive := some .rmd, dst := true }
  | .rmd160 => { src := true, dst := true }
  | .hash160 => { src := true, dst := true }
  | .b58Enc => { limit := .b58Max, src := true, dst := true }
  | .b58Dec => { limit := .b58Max, src := true, dst := true }
  | .b58Checksum => { src := true, dst := true }
  | .b58chkEnc => { limit := .b58MaxLess4, src := true, dst := true }
  | .b58chkDec => { limit := .b58Max, src := true, dst := true }
  | .wifEnc _ => { limit := .exactly 32, src := true, dst := true }
  | .wifDec => { limit := .b58Max, src := true, dst := true }
  | .derEnc _ => { limit := .exactly 64, src := true, dst := true }
  | .derDec => { src := true, dst := true }
  | .keyrecEnc _ _ => { limit := .exactly 32, src := true, dst := true }
  | .keyrecDec => { limit := .exactly 34, src := true, dst := true }

/-- `LengthOK` (R55) for SRC_LEN = n. -/
def LengthLimit.allows (l : LengthLimit) (p : Params) (n : Nat) : Bool :=
  match l with
  | .any => true
  | .b58Max => decide (n ≤ p.b58Max)
  | .b58MaxLess4 => decide (n + 4 ≤ p.b58Max)
  | .exactly k => n == k

/-- `InDMEM(a, n)` (R56): the sum is on unbounded integers, so it cannot wrap. -/
def inDmem (p : Params) (a : Word) (n : Nat) : Bool := decide (a.toNat + n ≤ p.dmemSize)

/-- The MISUSE condition of R54: the context the command needs is FINALIZED. -/
def Form.misused (f : Form) (s : State) : Bool :=
  match f.needsActive with
  | none => false
  | some .sha => s.sha.phase == .finalized
  | some .rmd => s.rmd.phase == .finalized

end Sys2Proof.Machine
end

