-- ==== Sys2Proof/Machine/Ops.lean ====
section
/-! DEFINITION. The operations commands share: DMEM (R31), the end of a command with an error (R59) and
with success (R58), the execution frame (R54) and the soft reset (R142). -/

namespace Sys2Proof.Machine

/-- The canonical form of DMEM: addresses strictly rising. (No entry can equal what an unlisted address
reads as, since that is no value.) -/
abbrev Memory.wf (m : Memory) : Prop := m.Pairwise (fun x y => x.1 < y.1)

/-- The value of DMEM byte `a`, or `none` when it is UNWRITTEN (R31). -/
def Memory.read (m : Memory) (a : Nat) : Option Byte :=
  match m with
  | [] => none
  | c :: rest => if c.1 = a then some c.2 else if a < c.1 then none else Memory.read rest a

/-- DMEM with byte `a` holding `v`, entries kept in rising order. -/
def Memory.write (m : Memory) (a : Nat) (v : Byte) : Memory :=
  match m with
  | [] => [(a, v)]
  | c :: rest =>
    if a < c.1 then (a, v) :: c :: rest
    else if a = c.1 then (a, v) :: rest
    else c :: Memory.write rest a v

/-- `MemWrite(a, len(bs), bs)` (R10): the bytes go to `a`, `a+1`, … -/
def Memory.writeBytes (m : Memory) (a : Nat) : List Byte → Memory
  | [] => m
  | b :: bs => Memory.writeBytes (m.write a b) (a + 1) bs

/-- One byte as a read returns it: an UNWRITTEN byte gives the free value of this access's draw (R31, I1;
log 4). The draw number is the state's for the whole access, so that a command draws a byte once (R57). -/
def State.readByte (s : State) (a : Nat) : Byte := (s.dmem.read a).getD (Config.freeByte s.draws a)

/-- `MemRead(a, n)` (R10). -/
def State.readBytes (s : State) (a n : Nat) : List Byte := (List.range n).map (fun k => s.readByte (a + k))

/-- The bytes of the SRC region. -/
def State.srcBytes (s : State) : List Byte := s.readBytes s.operands.srcAddr.toNat s.operands.srcLen.toNat

/-- The bytes of the AUX region. -/
def State.auxBytes (s : State) : List Byte := s.readBytes s.operands.auxAddr.toNat s.operands.auxLen.toNat

/-- TAKING AN ERROR: `Abort(code)` (R59). This is the whole effect of a failed command: no trap entry, no
saved state (R127). The return beside it is the host's STATUS write (R128), `writeRegister .status`. -/
def State.abort (s : State) (code : ErrCode) : State :=
  { s with
    resLen := 0
    resFlags := ResFlags.zero
    status := { done := true, err := true, errcode := code } }

/-- What `Compute` returns (R54): the output bytes, the new context of a command that changes one, and
the result flags. -/
structure Result where
  out : List Byte := []
  sha : Option (HashCtx Words8) := none
  rmd : Option (HashCtx Words5) := none
  flags : ResFlags := ResFlags.zero
deriving DecidableEq, Repr

/-- `Commit` (R58): all effects of a successful command together; ERR is left as it is. -/
def State.commit (s : State) (hasDst : Bool) (r : Result) : State :=
  { s with
    dmem := if hasDst then s.dmem.writeBytes s.operands.dstAddr.toNat r.out else s.dmem
    sha := r.sha.getD s.sha
    rmd := r.rmd.getD s.rmd
    resLen := BitVec.ofNat 32 r.out.length
    resFlags := r.flags
    status := { s.status with errcode := .ok, done := true } }

/-- `Execute` (R54) after its legality check, for a command with operand form `f`: the first failing
check raises its error (R125), all input is read before any output is written (R57), and the DST region
is checked at the actual output length (R60). -/
def State.execute (s : State) (f : Form) (compute : List Byte → List Byte → Except ErrCode Result) : State :=
  if f.misused s then s.abort .misuse
  else if !f.limit.allows s.params s.operands.srcLen.toNat then s.abort .length
  else if f.src && !inDmem s.params s.operands.srcAddr s.operands.srcLen.toNat then s.abort .rangeIn
  else if f.aux && !inDmem s.params s.operands.auxAddr s.operands.auxLen.toNat then s.abort .rangeIn
  else
    match compute (if f.src then s.srcBytes else []) (if f.aux then s.auxBytes else []) with
    | .error code => s.abort code
    | .ok r =>
      if f.dst && !inDmem s.params s.operands.dstAddr r.out.length then s.abort .rangeOut
      else s.commit f.dst r

/-- The soft reset (R142, R143): the power-on value of everything but DMEM. The parameters and the
model's own fields are not the engine's to reset. -/
def State.softReset (s : State) : State :=
  { State.powerOn s.params with
    dmem := s.dmem
    hostQueue := s.hostQueue
    response := s.response
    draws := s.draws }

/-- An access is over: its response stands on the bus, and the next access draws afresh (R31). -/
def State.respond (s : State) (r : Response) : State := { s with response := r, draws := s.draws + 1 }

end Sys2Proof.Machine
end

