-- ==== Sys2Proof/Machine/Bits.lean ====
section
/-! DEFINITION. Word operations and the conversions between bytes, words and numbers (R8, R9). -/

namespace Sys2Proof.Machine

/-- `ROTR(x, n)` for 0 < n < 32 (R8). -/
def rotr (x : Word) (n : Nat) : Word := (x >>> n) ||| (x <<< (32 - n))

/-- `ROTL(x, n)` for 0 < n < 32 (R8). -/
def rotl (x : Word) (n : Nat) : Word := (x <<< n) ||| (x >>> (32 - n))

/-- `be32(w)`: four bytes, most significant first (R9). -/
def be32 (w : Word) : List Byte :=
  [w.extractLsb' 24 8, w.extractLsb' 16 8, w.extractLsb' 8 8, w.extractLsb' 0 8]

/-- `le32(w)`: four bytes, least significant first (R9). -/
def le32 (w : Word) : List Byte :=
  [w.extractLsb' 0 8, w.extractLsb' 8 8, w.extractLsb' 16 8, w.extractLsb' 24 8]

/-- `be64(v)`: eight bytes, most significant first (R9). -/
def be64 (v : BitVec 64) : List Byte := be32 (v.extractLsb' 32 32) ++ be32 (v.extractLsb' 0 32)

/-- `le64(v)`: eight bytes, least significant first (R9). -/
def le64 (v : BitVec 64) : List Byte := le32 (v.extractLsb' 0 32) ++ le32 (v.extractLsb' 32 32)

/-- A byte sequence cut into words by `BE32` (R9). -/
def wordsBE : List Byte → List Word
  | a :: b :: c :: d :: rest => (a ++ b ++ c ++ d : BitVec 32) :: wordsBE rest
  | [] | [_] | [_, _] | [_, _, _] => []

/-- A byte sequence cut into words by `LE32` (R9). -/
def wordsLE : List Byte → List Word
  | a :: b :: c :: d :: rest => (d ++ c ++ b ++ a : BitVec 32) :: wordsLE rest
  | [] | [_] | [_, _] | [_, _, _] => []

/-- `int_be(b)`: the number with the big-endian base-256 digits `b` (R9). -/
def intBe (b : List Byte) : Nat := b.foldl (fun n x => n * 256 + x.toNat) 0

/-- The division loop of R96, for any base: the remainders are collected in front until the quotient is
zero. `fuel` bounds the loop; `n` itself is always enough, since a quotient is smaller. -/
def digitsLoop (base : Nat) : Nat → Nat → List Nat → List Nat
  | 0, _, ds => ds
  | fuel + 1, n, ds => if n = 0 then ds else digitsLoop base fuel (n / base) (n % base :: ds)

/-- The shortest digit string of `n` in a base, most significant first; `[]` for 0 (R96). -/
def digitsOf (base n : Nat) : List Nat := digitsLoop base n n []

/-- `min_be(n)`: the shortest byte sequence whose `int_be` is `n` (R9). -/
def minBe (n : Nat) : List Byte := (digitsOf 256 n).map (BitVec.ofNat 8)

/-- `lpad32(b)`: `b` extended on the left with zero bytes to 32 bytes (R9). -/
def lpad32 (b : List Byte) : List Byte := List.replicate (32 - b.length) 0 ++ b

end Sys2Proof.Machine
end

