-- ==== Sys2Proof/Machine/Streaming.lean ====
section
/-! DEFINITION. The Merkle–Damgård streaming contract both engines share (R69, R70, R83, R84), over the
engine's compression function. -/

namespace Sys2Proof.Machine

variable {α : Type}

/-- One byte of the loop of R69: it joins the buffer, and a full 64-byte block is compressed at once. -/
def HashCtx.absorbByte (compress : α → List Byte → α) (c : HashCtx α) (b : Byte) : HashCtx α :=
  let buf := c.buf ++ [b]
  if buf.length = 64 then { c with H := compress c.H buf, buf := [] } else { c with buf := buf }

/-- `Absorb(ctx, m)` (R69, R83): the bit count is kept modulo 2^64 (90_conflicts.md C4). -/
def HashCtx.absorb (compress : α → List Byte → α) (c : HashCtx α) (m : List Byte) : HashCtx α :=
  m.foldl (HashCtx.absorbByte compress) { c with bitlen := c.bitlen + BitVec.ofNat 64 (8 * m.length) }

/-- The finalized context of `Final(ctx)` (R70, R84). `lenField` writes the bit length, which is the count
before padding; a padded buffer past the 56-byte mark costs a flush transform first. -/
def HashCtx.finish (compress : α → List Byte → α) (lenField : BitVec 64 → List Byte) (c : HashCtx α) : HashCtx α :=
  let p := c.buf ++ [0x80]
  let lastBlock (q : List Byte) := q ++ List.replicate (56 - q.length) 0 ++ lenField c.bitlen
  let H :=
    if p.length > 56 then compress (compress c.H (p ++ List.replicate (64 - p.length) 0)) (lastBlock [])
    else compress c.H (lastBlock p)
  { c with H := H, buf := [], phase := .finalized }

end Sys2Proof.Machine
end

