-- ==== Sys2Proof/Machine/Ripemd160.lean ====
section
/-! DEFINITION. The Hash-160 engine (42_ripemd160.md, R77–R89). -/

namespace Sys2Proof.Machine

/-- The five boolean functions by round index (R77). -/
def rmdF (j : Nat) (x y z : Word) : Word :=
  if j ≤ 15 then x ^^^ y ^^^ z
  else if j ≤ 31 then (x &&& y) ||| (~~~ x &&& z)
  else if j ≤ 47 then (x ||| ~~~ y) ^^^ z
  else if j ≤ 63 then (x &&& z) ||| (y &&& ~~~ z)
  else x ^^^ (y ||| ~~~ z)

/-- One round of one line (R82): `fj` is the index the line gives to `f`, `x` the message word it selects,
`k` its constant and `r` its rotation amount. -/
def rmdLine (v : Words5) (fj : Nat) (x k : Word) (r : Nat) : Words5 :=
  ⟨v.h4, rotl (v.h0 + rmdF fj v.h1 v.h2 v.h3 + x + k) r + v.h4, v.h1, rotl v.h2 10, v.h3⟩

/-- Round `j` of the left line (R77–R80, R82). -/
def rmdRoundL (X : List Word) (v : Words5) (j : Nat) : Words5 :=
  rmdLine v j (X.getD (selectL.getD j 0) 0) (roundKL.getD (j / 16) 0) (rotateL.getD j 0)

/-- Round `j` of the right line, which uses `f(79 − j, ·)` (R77–R80, R82). -/
def rmdRoundR (X : List Word) (v : Words5) (j : Nat) : Words5 :=
  rmdLine v (79 - j) (X.getD (selectR.getD j 0) 0) (roundKR.getD (j / 16) 0) (rotateR.getD j 0)

/-- `Compress160(H, B)` (R82): the lines are independent, and merge by the fixed word rotation. -/
def compress160 (H : Words5) (block : List Byte) : Words5 :=
  let X := wordsLE block
  let l := (List.range 80).foldl (rmdRoundL X) H
  let r := (List.range 80).foldl (rmdRoundR X) H
  ⟨H.h1 + l.h2 + r.h3, H.h2 + l.h3 + r.h4, H.h3 + l.h4 + r.h0, H.h4 + l.h0 + r.h1, H.h0 + l.h1 + r.h2⟩

/-- `INIT160` (R85). -/
def init160 : HashCtx Words5 := HashCtx.init iv160

/-- `Absorb160` (R83). -/
def absorb160 (c : HashCtx Words5) (m : List Byte) : HashCtx Words5 := c.absorb compress160 m

/-- The context part of `Final160` (R84): the length field is little-endian. -/
def finish160 (c : HashCtx Words5) : HashCtx Words5 := c.finish compress160 le64

/-- The digest of a finalized context, little-endian (R84, R85). -/
def digest160 (c : HashCtx Words5) : List Byte := c.H.toList.flatMap le32

/-- `RMD160(m)` (R85), on a temporary context. -/
def rmd160 (m : List Byte) : List Byte := digest160 (finish160 (absorb160 init160 m))

/-- RMD160_INIT (R86). -/
def execRmd160Init (s : State) : Host.Outcome State Fault Refusal :=
  .next (s.execute (operandForm .rmd160Init) (fun _ _ => .ok { rmd := some init160 }))

/-- RMD160_UPDATE (R87). -/
def execRmd160Update (s : State) : Host.Outcome State Fault Refusal :=
  .next (s.execute (operandForm .rmd160Update) (fun m _ => .ok { rmd := some (absorb160 s.rmd m) }))

/-- RMD160_FINAL (R88). -/
def execRmd160Final (s : State) : Host.Outcome State Fault Refusal :=
  .next (s.execute (operandForm .rmd160Final)
    (fun _ _ => .ok { out := digest160 (finish160 s.rmd), rmd := some (finish160 s.rmd) }))

/-- RMD160 (R89): RIPEMD-160 alone, not the composite. -/
def execRmd160 (s : State) : Host.Outcome State Fault Refusal :=
  .next (s.execute (operandForm .rmd160) (fun m _ => .ok { out := rmd160 m }))

end Sys2Proof.Machine
end

