-- ==== Sys2Proof/Machine/Sha256.lean ====
section
/-! DEFINITION. The Hash-256 engine (41_sha256.md, R65–R76). -/

namespace Sys2Proof.Machine

/-- `Ch` (R65). -/
def shaCh (x y z : Word) : Word := (x &&& y) ^^^ (~~~ x &&& z)

/-- `Maj` (R65). -/
def shaMaj (x y z : Word) : Word := (x &&& y) ^^^ (x &&& z) ^^^ (y &&& z)

/-- `Σ0` (R65). -/
def shaBigSigma0 (x : Word) : Word := rotr x 2 ^^^ rotr x 13 ^^^ rotr x 22

/-- `Σ1` (R65). -/
def shaBigSigma1 (x : Word) : Word := rotr x 6 ^^^ rotr x 11 ^^^ rotr x 25

/-- `σ0` (R65). -/
def shaSigma0 (x : Word) : Word := rotr x 7 ^^^ rotr x 18 ^^^ (x >>> 3)

/-- `σ1` (R65). -/
def shaSigma1 (x : Word) : Word := rotr x 17 ^^^ rotr x 19 ^^^ (x >>> 10)

/-- One word of the message schedule (R68), put in front of the words so far, latest first:
`W[t] = σ1(W[t-2]) + W[t-7] + σ0(W[t-15]) + W[t-16]`. -/
def shaScheduleStep (w : List Word) : List Word :=
  (shaSigma1 (w.getD 1 0) + w.getD 6 0 + shaSigma0 (w.getD 14 0) + w.getD 15 0) :: w

/-- `W[0..63]` of a 64-byte block (R68). -/
def shaSchedule (block : List Byte) : List Word :=
  (Nat.iterate shaScheduleStep 48 (wordsBE block).reverse).reverse

/-- One of the 64 rounds (R68) on the working variables a … h, with `K[t]` and `W[t]`. -/
def shaRound (v : Words8) (kw : Word × Word) : Words8 :=
  let t1 := v.h7 + shaBigSigma1 v.h4 + shaCh v.h4 v.h5 v.h6 + kw.1 + kw.2
  let t2 := shaBigSigma0 v.h0 + shaMaj v.h0 v.h1 v.h2
  ⟨t1 + t2, v.h0, v.h1, v.h2, v.h3 + t1, v.h4, v.h5, v.h6⟩

/-- `Compress256(H, B)` (R68). -/
def compress256 (H : Words8) (block : List Byte) : Words8 :=
  let v := (roundK.zip (shaSchedule block)).foldl shaRound H
  ⟨H.h0 + v.h0, H.h1 + v.h1, H.h2 + v.h2, H.h3 + v.h3, H.h4 + v.h4, H.h5 + v.h5, H.h6 + v.h6, H.h7 + v.h7⟩

/-- `INIT256` (R71). -/
def init256 : HashCtx Words8 := HashCtx.init iv256

/-- `Absorb256` (R69). -/
def absorb256 (c : HashCtx Words8) (m : List Byte) : HashCtx Words8 := c.absorb compress256 m

/-- The context part of `Final256` (R70): the length field is big-endian. -/
def finish256 (c : HashCtx Words8) : HashCtx Words8 := c.finish compress256 be64

/-- The digest of a finalized context, big-endian (R71). -/
def digest256 (c : HashCtx Words8) : List Byte := c.H.toList.flatMap be32

/-- `SHA256(m)` (R71), on a temporary context. -/
def sha256 (m : List Byte) : List Byte := digest256 (finish256 (absorb256 init256 m))

/-- SHA256_INIT (R73). -/
def execSha256Init (s : State) : Host.Outcome State Fault Refusal :=
  .next (s.execute (operandForm .sha256Init) (fun _ _ => .ok { sha := some init256 }))

/-- SHA256_UPDATE (R74). -/
def execSha256Update (s : State) : Host.Outcome State Fault Refusal :=
  .next (s.execute (operandForm .sha256Update) (fun m _ => .ok { sha := some (absorb256 s.sha m) }))

/-- SHA256_FINAL (R75). -/
def execSha256Final (s : State) : Host.Outcome State Fault Refusal :=
  .next (s.execute (operandForm .sha256Final)
    (fun _ _ => .ok { out := digest256 (finish256 s.sha), sha := some (finish256 s.sha) }))

/-- SHA256 (R76). -/
def execSha256 (s : State) : Host.Outcome State Fault Refusal :=
  .next (s.execute (operandForm .sha256) (fun m _ => .ok { out := sha256 m }))

end Sys2Proof.Machine
end

