-- ==== Sys2Proof/Machine/Composite.lean ====
section
/-! DEFINITION. The composite hash functions (43_composite.md, R90–R94), and NOP (R64). -/

namespace Sys2Proof.Machine

/-- `Hash256D` (R90). -/
def sha256d (m : List Byte) : List Byte := sha256 (sha256 m)

/-- `Hash160` (R91). -/
def hash160 (m : List Byte) : List Byte := rmd160 (sha256 m)

/-- The 64-byte HMAC key `k0` (R92): a key of more than 64 bytes is hashed first, and zero bytes fill it up
on the right. -/
def hmacKey (key : List Byte) : List Byte :=
  let k := if key.length > 64 then sha256 key else key
  k ++ List.replicate (64 - k.length) 0

/-- `HMAC256(key, data)` (R92). -/
def hmac256 (key data : List Byte) : List Byte :=
  let inner := sha256 ((hmacKey key).map (· ^^^ 0x36) ++ data)
  sha256 ((hmacKey key).map (· ^^^ 0x5c) ++ inner)

/-- NOP (R64): only the completion bookkeeping. -/
def execNop (s : State) : Host.Outcome State Fault Refusal :=
  .next (s.execute (operandForm .nop) (fun _ _ => .ok {}))

/-- SHA256D (R90). -/
def execSha256d (s : State) : Host.Outcome State Fault Refusal :=
  .next (s.execute (operandForm .sha256d) (fun m _ => .ok { out := sha256d m }))

/-- HASH160 (R91). -/
def execHash160 (s : State) : Host.Outcome State Fault Refusal :=
  .next (s.execute (operandForm .hash160) (fun m _ => .ok { out := hash160 m }))

/-- HMAC_SHA256 (R93): SRC is the data, AUX the key. -/
def execHmacSha256 (s : State) : Host.Outcome State Fault Refusal :=
  .next (s.execute (operandForm .hmacSha256) (fun data key => .ok { out := hmac256 key data }))

end Sys2Proof.Machine
end

