-- ==== Sys2Proof/Machine/Base58.lean ====
section
/-! DEFINITION. The Base58 and Base58Check codec (44_base58.md, R95–R108), with the fixed-width realisation
of R98 beside the exact rules. -/

namespace Sys2Proof.Machine

/-- `ALPHABET` as ASCII bytes (R95). -/
def alphabet : List Byte :=
  -- '1' … '9'
  [0x31, 0x32, 0x33, 0x34, 0x35, 0x36, 0x37, 0x38, 0x39] ++
  -- 'A' … 'H', 'J' … 'N', 'P' … 'Z'
  [0x41, 0x42, 0x43, 0x44, 0x45, 0x46, 0x47, 0x48] ++ [0x4a, 0x4b, 0x4c, 0x4d, 0x4e] ++
  [0x50, 0x51, 0x52, 0x53, 0x54, 0x55, 0x56, 0x57, 0x58, 0x59, 0x5a] ++
  -- 'a' … 'k', 'm' … 'z'
  [0x61, 0x62, 0x63, 0x64, 0x65, 0x66, 0x67, 0x68, 0x69, 0x6a, 0x6b] ++
  [0x6d, 0x6e, 0x6f, 0x70, 0x71, 0x72, 0x73, 0x74, 0x75, 0x76, 0x77, 0x78, 0x79, 0x7a]

/-- `Sym(d)` for 0 ≤ d < 58 (R95). -/
def sym (d : Nat) : Byte := alphabet.getD d 0

/-- `Idx(c)`, `none` for a byte that is no symbol (R95). -/
def idx (c : Byte) : Option Nat := alphabet.idxOf? c

/-- How many leading bytes of a sequence equal `x`. -/
def leadingCount (x : Byte) (b : List Byte) : Nat := (b.takeWhile (· == x)).length

/-- `Encode(b)` (R96). The loop tests the quotient (90_conflicts.md C1). -/
def base58Encode (b : List Byte) : List Byte :=
  let z := leadingCount 0x00 b
  List.replicate z (sym 0) ++ (digitsOf 58 (intBe (b.drop z))).map sym

/-- Why a text does not decode (R97, R103). -/
inductive TextError where
  | b58Char | chkShort | chkMismatch
deriving DecidableEq, Repr

/-- The error code of a text that does not decode (R105, R108). -/
def TextError.errCode : TextError → ErrCode
  | .b58Char => .b58Char
  | .chkShort => .chkShort
  | .chkMismatch => .chkMismatch

/-- The number of a text, most significant symbol first: `N <- N·58 + Idx(c)` (R97). -/
def base58Number (t : List Byte) : Nat := t.foldl (fun n c => n * 58 + (idx c).getD 0) 0

/-- `Decode(t)` (R97): the whole text is checked before anything else. -/
def base58Decode (t : List Byte) : Except TextError (List Byte) :=
  if t.any (fun c => (idx c).isNone) then .error .b58Char
  else
    let z := leadingCount (sym 0) t
    .ok (List.replicate z 0x00 ++ minBe (base58Number (t.drop z)))

/-- One step of the fixed-width arithmetic of R98 on a buffer of base-`base` digits, most significant first:
the whole buffer times `mul` plus `d`, the carry propagated from the least significant digit up. What
is carried out at the top is lost, as in a buffer of fixed width. -/
def bufferMulAdd (base mul : Nat) (buf : List Nat) (d : Nat) : List Nat :=
  (buf.foldr (fun x st => ((x * mul + st.2) % base :: st.1, (x * mul + st.2) / base)) ([], d)).1

/-- `ceil(num · n / 1000)`. -/
def ceilMilli (num n : Nat) : Nat := (num * n + 999) / 1000

/-- The source's decoder (R98): a byte buffer of `ceil(0.733 · L) + 1` bytes. -/
def base58DecodeBuffered (t : List Byte) : Except TextError (List Byte) :=
  if t.any (fun c => (idx c).isNone) then .error .b58Char
  else
    let z := leadingCount (sym 0) t
    let rest := t.drop z
    let buf := rest.foldl (fun buf c => bufferMulAdd 256 58 buf ((idx c).getD 0))
      (List.replicate (ceilMilli 733 rest.length + 1) 0)
    .ok (List.replicate z 0x00 ++ (buf.dropWhile (· == 0)).map (BitVec.ofNat 8))

/-- The encoder with R98's digit buffer of `ceil(1.366 · (len(b) − z)) + 1` base-58 digits. -/
def base58EncodeBuffered (b : List Byte) : List Byte :=
  let z := leadingCount 0x00 b
  let rest := b.drop z
  let buf := rest.foldl (fun buf x => bufferMulAdd 58 256 buf x.toNat)
    (List.replicate (ceilMilli 1366 rest.length + 1) 0)
  List.replicate z (sym 0) ++ (buf.dropWhile (· == 0)).map sym

/-- `Checksum(b)` (R101): the first four digest bytes, as they stand. -/
def base58Checksum (b : List Byte) : List Byte := (sha256d b).take 4

/-- `EncodeCheck(p)` (R102). -/
def encodeCheck (p : List Byte) : List Byte := base58Encode (p ++ base58Checksum p)

/-- `DecodeCheck(t)` (R103): the first failing check decides. -/
def decodeCheck (t : List Byte) : Except TextError (List Byte) :=
  match base58Decode t with
  | .error e => .error e
  | .ok d =>
    if d.length < 4 then .error .chkShort
    else
      let p := d.take (d.length - 4)
      if d.drop (d.length - 4) ≠ base58Checksum p then .error .chkMismatch else .ok p

/-- A codec function as `Compute` sees it: a failure raises its `CmdError` (R105, R108). -/
def textResult (r : Except TextError (List Byte)) : Except ErrCode Result :=
  match r with
  | .error e => .error e.errCode
  | .ok b => .ok { out := b }

/-- B58_ENC (R104). -/
def execB58Enc (s : State) : Host.Outcome State Fault Refusal :=
  .next (s.execute (operandForm .b58Enc) (fun b _ => .ok { out := base58Encode b }))

/-- B58_DEC (R105). -/
def execB58Dec (s : State) : Host.Outcome State Fault Refusal :=
  .next (s.execute (operandForm .b58Dec) (fun t _ => textResult (base58Decode t)))

/-- B58_CHECKSUM (R106). -/
def execB58Checksum (s : State) : Host.Outcome State Fault Refusal :=
  .next (s.execute (operandForm .b58Checksum) (fun b _ => .ok { out := base58Checksum b }))

/-- B58CHK_ENC (R107). -/
def execB58chkEnc (s : State) : Host.Outcome State Fault Refusal :=
  .next (s.execute (operandForm .b58chkEnc) (fun p _ => .ok { out := encodeCheck p }))

/-- B58CHK_DEC (R108). -/
def execB58chkDec (s : State) : Host.Outcome State Fault Refusal :=
  .next (s.execute (operandForm .b58chkDec) (fun t _ => textResult (decodeCheck t)))

end Sys2Proof.Machine
end

