-- ==== Sys2Proof/Machine/KeyFormats.lean ====
section
/-! DEFINITION. The key and signature serializer (45_keyformats.md, R109–R121): WIF, DER and the key record. -/

namespace Sys2Proof.Machine

/-- `ValidateScalar(s)` (R6): any function of the scalar that refuses zero. The Curve Engine's answer on
every other scalar is free (I4, log 6), and it always answers (R132, log 9). -/
def validateScalar (s : List Byte) : Bool := s.any (· != 0) && Config.curveAnswer s

/-- The WIF payload (R109). -/
def wifPayload (scalar : List Byte) (compressed : Bool) : List Byte :=
  [Config.wifVersion] ++ scalar ++ (if compressed then [0x01] else [])

/-- The WIF text of a scalar (R109, R110). -/
def wifExport (scalar : List Byte) (compressed : Bool) : List Byte := encodeCheck (wifPayload scalar compressed)

/-- The invalid sentinel with its diagnostic (R111). -/
def invalidKey (d : Diag) : List Byte × ResFlags :=
  (List.replicate 32 0, { keyValid := false, keyCompressed := false, diag := d })

/-- The DIAG of a text that does not decode (R111). -/
def TextError.wifDiag : TextError → Diag
  | .b58Char => .b58Char
  | .chkShort => .chkShort
  | .chkMismatch => .chkMismatch

/-- `WifImport(t)` (R111), with the Curve Engine's predicate as its parameter (R14): the scalar and the
flags. The checks run in this order, and the first that fails decides DIAG. -/
def wifImport (validate : List Byte → Bool) (t : List Byte) : List Byte × ResFlags :=
  match decodeCheck t with
  | .error e => invalidKey e.wifDiag
  | .ok p =>
    if p.length ≠ 33 ∧ p.length ≠ 34 then invalidKey .wifLength
    else if p.getD 0 0 ≠ Config.wifVersion then invalidKey .wifVersion
    else if p.length = 34 ∧ p.getD 33 0 ≠ 0x01 then invalidKey .wifMarker
    else
      let s := (p.drop 1).take 32
      if !validate s then invalidKey .scalarInvalid
      else (s, { keyValid := true, keyCompressed := p.length == 34, diag := .ok })

/-- WIF_ENC (R110): the scalar is not validated. -/
def execWifEnc (compressed : Bool) (s : State) : Host.Outcome State Fault Refusal :=
  .next (s.execute (operandForm (.wifEnc compressed)) (fun k _ => .ok { out := wifExport k compressed }))

/-- WIF_DEC (R112): a bad text completes, with KEY_VALID = 0 (90_conflicts.md C3). -/
def execWifDec (s : State) : Host.Outcome State Fault Refusal :=
  .next (s.execute (operandForm .wifDec)
    (fun t _ => .ok { out := (wifImport validateScalar t).1, flags := (wifImport validateScalar t).2 }))

/-- `DerInt(x, legacy)` (R114). -/
def derInt (legacy : Bool) (x : List Byte) : List Byte :=
  let t := match x.dropWhile (· == 0) with
    | [] => [0x00]
    | b :: rest => b :: rest
  if !legacy && decide (0x80 ≤ (t.getD 0 0).toNat) then 0x00 :: t else t

/-- The DER bytes of a signature, `30 LL 02 rl <r> 02 sl <s>` (R113, R115). -/
def derEncode (legacy : Bool) (r s : List Byte) : List Byte :=
  let R := derInt legacy r
  let S := derInt legacy s
  [0x30, BitVec.ofNat 8 (4 + R.length + S.length), 0x02, BitVec.ofNat 8 R.length] ++ R ++
    [0x02, BitVec.ofNat 8 S.length] ++ S

/-- One INTEGER field as a 32-byte number, right-aligned (R116, 90_conflicts.md C2); `none` when a 33-byte
field does not start with 0x00, that is, when its value is 2^256 or more. -/
def derField (f : List Byte) : Option (List Byte) :=
  if f.length = 33 ∧ f.getD 0 0 ≠ 0x00 then none else some (lpad32 (f.drop (f.length - 32)))

/-- `DerParse(b)` (R116): the checks in order; `none` is DER_FORMAT. -/
def derParse (b : List Byte) : Option (List Byte) :=
  let n := b.length
  if n < 8 ∨ n > 72 then none
  else if b.getD 0 0 ≠ 0x30 ∨ (b.getD 1 0).toNat ≠ n - 2 then none
  else if b.getD 2 0 ≠ 0x02 then none
  else
    let rl := (b.getD 3 0).toNat
    if rl < 1 ∨ rl > 33 ∨ 6 + rl > n then none
    else if b.getD (4 + rl) 0 ≠ 0x02 then none
    else
      let sl := (b.getD (5 + rl) 0).toNat
      if sl < 1 ∨ sl > 33 ∨ 6 + rl + sl ≠ n then none
      else
        match derField ((b.drop 4).take rl), derField ((b.drop (6 + rl)).take sl) with
        | some r, some s => some (r ++ s)
        | _, _ => none

/-- `DerParse` as `Compute` sees it: every failure is DER_FORMAT (R116, R117). -/
def derResult (r : Option (List Byte)) : Except ErrCode Result :=
  match r with
  | none => .error .derFormat
  | some b => .ok { out := b }

/-- DER_ENC (R115): r is bytes 0–31 of SRC, s bytes 32–63. -/
def execDerEnc (legacy : Bool) (s : State) : Host.Outcome State Fault Refusal :=
  .next (s.execute (operandForm (.derEnc legacy))
    (fun rs _ => .ok { out := derEncode legacy (rs.take 32) ((rs.drop 32).take 32) }))

/-- DER_DEC (R117). -/
def execDerDec (s : State) : Host.Outcome State Fault Refusal :=
  .next (s.execute (operandForm .derDec) (fun b _ => derResult (derParse b)))

/-- A flag byte of the key record as the engine writes it (R118). -/
def flagByte (b : Bool) : Byte := if b then 0x01 else 0x00

/-- The 34-byte key record (R118, R119). -/
def keyRecord (valid compressed : Bool) (scalar : List Byte) : List Byte :=
  [flagByte valid, flagByte compressed] ++ scalar

/-- The import of a key record (R120): the stored scalar, and the flags. A flag byte that is not zero reads
as true (R118, I15). -/
def keyRecordImport (validate : List Byte → Bool) (rec : List Byte) : List Byte × ResFlags :=
  let s := (rec.drop 2).take 32
  let ok := validate s
  (s, { keyValid := rec.getD 0 0 != 0 && ok
        keyCompressed := rec.getD 1 0 != 0
        diag := if rec.getD 0 0 = 0 then .storedInvalid else if !ok then .scalarInvalid else .ok })

/-- KEYREC_ENC (R119). -/
def execKeyrecEnc (valid compressed : Bool) (s : State) : Host.Outcome State Fault Refusal :=
  .next (s.execute (operandForm (.keyrecEnc valid compressed))
    (fun k _ => .ok { out := keyRecord valid compressed k }))

/-- KEYREC_DEC (R120). -/
def execKeyrecDec (s : State) : Host.Outcome State Fault Refusal :=
  .next (s.execute (operandForm .keyrecDec)
    (fun r _ => .ok { out := (keyRecordImport validateScalar r).1, flags := (keyRecordImport validateScalar r).2 }))

end Sys2Proof.Machine
end

