-- ==== Sys2Proof/Machine/Dispatch.lean ====
section
/-! DEFINITION. One arm per command. -/

namespace Sys2Proof.Machine

def exec (i : Instr) (s : State) : Host.Outcome State Fault Refusal :=
  match i with
  | .nop => Sys2Proof.Machine.execNop s
  | .sha256Init => Sys2Proof.Machine.execSha256Init s
  | .sha256Update => Sys2Proof.Machine.execSha256Update s
  | .sha256Final => Sys2Proof.Machine.execSha256Final s
  | .sha256 => Sys2Proof.Machine.execSha256 s
  | .sha256d => Sys2Proof.Machine.execSha256d s
  | .hmacSha256 => Sys2Proof.Machine.execHmacSha256 s
  | .rmd160Init => Sys2Proof.Machine.execRmd160Init s
  | .rmd160Update => Sys2Proof.Machine.execRmd160Update s
  | .rmd160Final => Sys2Proof.Machine.execRmd160Final s
  | .rmd160 => Sys2Proof.Machine.execRmd160 s
  | .hash160 => Sys2Proof.Machine.execHash160 s
  | .b58Enc => Sys2Proof.Machine.execB58Enc s
  | .b58Dec => Sys2Proof.Machine.execB58Dec s
  | .b58Checksum => Sys2Proof.Machine.execB58Checksum s
  | .b58chkEnc => Sys2Proof.Machine.execB58chkEnc s
  | .b58chkDec => Sys2Proof.Machine.execB58chkDec s
  | .wifEnc compressed => Sys2Proof.Machine.execWifEnc compressed s
  | .wifDec => Sys2Proof.Machine.execWifDec s
  | .derEnc legacy => Sys2Proof.Machine.execDerEnc legacy s
  | .derDec => Sys2Proof.Machine.execDerDec s
  | .keyrecEnc valid compressed => Sys2Proof.Machine.execKeyrecEnc valid compressed s
  | .keyrecDec => Sys2Proof.Machine.execKeyrecDec s

end Sys2Proof.Machine
end

