-- ==== Sys2Proof/Machine/Flags.lean ====
section
/-! DEFINITION. The codes of R22 and R123, the words of CTRL, STATUS and RES_FLAGS, and `irq` (R28). -/

namespace Sys2Proof.Machine

/-- The values of STATUS.ERRCODE (R123). -/
def ErrCode.code : ErrCode → BitVec 8
  | .ok => 0x00
  | .illegalCmd => 0x01
  | .misuse => 0x02
  | .length => 0x03
  | .rangeIn => 0x04
  | .b58Char => 0x05
  | .chkShort => 0x06
  | .chkMismatch => 0x07
  | .derFormat => 0x08
  | .rangeOut => 0x09

/-- The values of RES_FLAGS.DIAG (R22). -/
def Diag.code : Diag → BitVec 4
  | .ok => 0
  | .b58Char => 1
  | .chkShort => 2
  | .chkMismatch => 3
  | .wifLength => 4
  | .wifVersion => 5
  | .wifMarker => 6
  | .scalarInvalid => 7
  | .storedInvalid => 8

/-- A word with bit `n` equal to `b` and every other bit 0. -/
def bitAt (b : Bool) (n : Nat) : Word := (BitVec.ofBool b).setWidth 32 <<< n

/-- CTRL as read (R17): IE_DONE bit 1, IE_ERR bit 2; SRST and the reserved bits read 0. -/
def Ctrl.word (c : Ctrl) : Word := bitAt c.ieDone 1 ||| bitAt c.ieErr 2

/-- 1 exactly when the phase is FINALIZED (R18: SHA_FIN, RMD_FIN). -/
def Phase.fin : Phase → Bool
  | .active => false
  | .finalized => true

/-- STATUS as read (R18). -/
def State.statusWord (s : State) : Word :=
  bitAt s.status.done 0 ||| bitAt s.status.err 1 ||| (s.status.errcode.code.setWidth 32 <<< 8) |||
  bitAt s.sha.phase.fin 16 ||| bitAt s.rmd.phase.fin 17

/-- RES_FLAGS as read (R22). -/
def ResFlags.word (f : ResFlags) : Word :=
  bitAt f.keyValid 0 ||| bitAt f.keyCompressed 1 ||| (f.diag.code.setWidth 32 <<< 8)

/-- The interrupt output (R28, R129). -/
def State.irq (s : State) : Bool :=
  (s.status.done && s.ctrl.ieDone) || (s.status.err && s.ctrl.ieErr)

end Sys2Proof.Machine
end

