-- ==== Sys2Proof/Machine/Registers.lean ====
section
/-! DEFINITION. The register map (R16–R24) and the DMEM window (R33): what a host read returns and what a
host write stores. -/

namespace Sys2Proof.Machine

/-- The registers R16 lists. -/
inductive Reg where
  | id | ctrl | status | cmd
  | srcAddr | srcLen | dstAddr | auxAddr | auxLen
  | resLen | resFlags | capDmem | capB58
  | shaH (i : Fin 8) | shaBuflen | shaBitlenLo | shaBitlenHi
  | rmdH (i : Fin 5) | rmdBuflen | rmdBitlenLo | rmdBitlenHi
deriving DecidableEq, Repr

/-- The offset column of R16. -/
def Reg.offset : Reg → Offset
  | .id => 0x000
  | .ctrl => 0x004
  | .status => 0x008
  | .cmd => 0x00C
  | .srcAddr => 0x010
  | .srcLen => 0x014
  | .dstAddr => 0x018
  | .auxAddr => 0x01C
  | .auxLen => 0x020
  | .resLen => 0x024
  | .resFlags => 0x028
  | .capDmem => 0x030
  | .capB58 => 0x034
  | .shaH i => BitVec.ofNat 13 (0x040 + 4 * i.val)
  | .shaBuflen => 0x060
  | .shaBitlenLo => 0x064
  | .shaBitlenHi => 0x068
  | .rmdH i => BitVec.ofNat 13 (0x070 + 4 * i.val)
  | .rmdBuflen => 0x084
  | .rmdBitlenLo => 0x088
  | .rmdBitlenHi => 0x08C

/-- Every register of R16. -/
def allRegs : List Reg :=
  [.id, .ctrl, .status, .cmd, .srcAddr, .srcLen, .dstAddr, .auxAddr, .auxLen, .resLen, .resFlags,
   .capDmem, .capB58] ++
  [.shaH 0, .shaH 1, .shaH 2, .shaH 3, .shaH 4, .shaH 5, .shaH 6, .shaH 7, .shaBuflen, .shaBitlenLo,
   .shaBitlenHi] ++
  [.rmdH 0, .rmdH 1, .rmdH 2, .rmdH 3, .rmdH 4, .rmdBuflen, .rmdBitlenLo, .rmdBitlenHi]

/-- The register at an offset; `none` for a reserved one (R16, I9). -/
def regAt (off : Offset) : Option Reg := allRegs.find? (fun r => r.offset == off)

/-- What a 32-bit read of a register returns (R16–R24). CMD reads 0 (R19). -/
def State.readRegister (s : State) : Reg → Word
  | .id => Config.idValue
  | .ctrl => s.ctrl.word
  | .status => s.statusWord
  | .cmd => 0
  | .srcAddr => s.operands.srcAddr
  | .srcLen => s.operands.srcLen
  | .dstAddr => s.operands.dstAddr
  | .auxAddr => s.operands.auxAddr
  | .auxLen => s.operands.auxLen
  | .resLen => s.resLen
  | .resFlags => s.resFlags.word
  | .capDmem => BitVec.ofNat 32 s.params.dmemSize
  | .capB58 => BitVec.ofNat 32 s.params.b58Max
  | .shaH i => s.sha.H.toList.getD i.val 0
  | .shaBuflen => (BitVec.ofNat 6 s.sha.buf.length).setWidth 32
  | .shaBitlenLo => s.sha.bitlen.extractLsb' 0 32
  | .shaBitlenHi => s.sha.bitlen.extractLsb' 32 32
  | .rmdH i => s.rmd.H.toList.getD i.val 0
  | .rmdBuflen => (BitVec.ofNat 6 s.rmd.buf.length).setWidth 32
  | .rmdBitlenLo => s.rmd.bitlen.extractLsb' 0 32
  | .rmdBitlenHi => s.rmd.bitlen.extractLsb' 32 32

/-- A write of `v` to CTRL (R17): bit 0 soft-resets, and the rest of `v` is then discarded. -/
def State.writeCtrl (s : State) (v : Word) : State :=
  if v.getLsbD 0 then s.softReset else { s with ctrl := { ieDone := v.getLsbD 1, ieErr := v.getLsbD 2 } }

/-- A write of `v` to STATUS (R18, R128): ones clear DONE and ERR; nothing else is writable. This is the
acknowledgement that stands where another machine would have a return from exception. -/
def State.writeStatus (s : State) (v : Word) : State :=
  { s with status := { s.status with
      done := s.status.done && !v.getLsbD 0
      err := s.status.err && !v.getLsbD 1 } }

/-- What a 32-bit write of a register stores. Read-only registers ignore it (R16, I11), operand registers
take all 32 bits (R20), and CMD has no storage (R19): `performAccess` runs its command. -/
def State.writeRegister (s : State) (r : Reg) (v : Word) : State :=
  match r with
  | .ctrl => s.writeCtrl v
  | .status => s.writeStatus v
  | .srcAddr => { s with operands := { s.operands with srcAddr := v } }
  | .srcLen => { s with operands := { s.operands with srcLen := v } }
  | .dstAddr => { s with operands := { s.operands with dstAddr := v } }
  | .auxAddr => { s with operands := { s.operands with auxAddr := v } }
  | .auxLen => { s with operands := { s.operands with auxLen := v } }
  | .id | .cmd | .resLen | .resFlags | .capDmem | .capB58 | .shaH _ | .shaBuflen | .shaBitlenLo | .shaBitlenHi
  | .rmdH _ | .rmdBuflen | .rmdBitlenLo | .rmdBitlenHi => s

/-- The offset lies in the DMEM window, 0x1000–0x1FFF (R16, R33). -/
def inWindow (off : Offset) : Bool := off.getLsbD 12

/-- The DMEM byte address a window offset reaches (R33): offset − 0x1000, the low 12 bits of an offset in
the window. -/
def windowAddr (off : Offset) : Nat := off.toNat % 0x1000

/-- An 8-bit read of the DMEM window (R33): 0 at `DMEM_SIZE` and above (I9). -/
def State.readWindowByte (s : State) (a : Nat) : Byte := if a < s.params.dmemSize then s.readByte a else 0

/-- An 8-bit write of the DMEM window (R33): ignored at `DMEM_SIZE` and above (I9). -/
def State.writeWindowByte (s : State) (a : Nat) (v : Byte) : State :=
  if a < s.params.dmemSize then { s with dmem := s.dmem.write a v } else s

/-- A 32-bit read of the DMEM window, little-endian (R33). -/
def State.readWindowWord (s : State) (a : Nat) : Word :=
  (s.readWindowByte (a + 3) ++ s.readWindowByte (a + 2) ++ s.readWindowByte (a + 1) ++ s.readWindowByte a : BitVec 32)

/-- A 32-bit write of the DMEM window, little-endian (R33). -/
def State.writeWindowWord (s : State) (a : Nat) (v : Word) : State :=
  (((s.writeWindowByte a (v.extractLsb' 0 8)).writeWindowByte (a + 1) (v.extractLsb' 8 8)).writeWindowByte
    (a + 2) (v.extractLsb' 16 8)).writeWindowByte (a + 3) (v.extractLsb' 24 8)

/-- What a 32-bit aligned read returns: DMEM, a register, or 0 at a reserved offset (R16, R33). -/
def State.readWord (s : State) (off : Offset) : Word :=
  if inWindow off then s.readWindowWord (windowAddr off)
  else match regAt off with
    | some r => s.readRegister r
    | none => 0

/-- The offset a host address reaches in a window at `base` (R16: BASE + offset); `none` for an address
that is no part of this engine's window. -/
def windowOffset (base addr : Nat) : Option Offset :=
  if base ≤ addr ∧ addr < base + 0x2000 then some (BitVec.ofNat 13 (addr - base)) else none

/-- The host address of a window offset (R16). -/
def hostAddress (base : Nat) (off : Offset) : Nat := base + off.toNat

end Sys2Proof.Machine
end

