-- ==== Sys2Proof/Machine/Access.lean ====
section
/-! DEFINITION. One host access, carried through with all of its effects (R34, R36, R37, R41): a read, a
write, or a CMD write with its whole command. -/

namespace Sys2Proof.Machine

/-- The table of R34: the bus error an access is, or `none` when it is performed. -/
def busFault : HostAccess → Option Fault
  | .read8 off => if inWindow off then none else some .busByteRegister
  | .write8 off _ => if inWindow off then none else some .busByteRegister
  | .read32 off => if off.toNat % 4 = 0 then none else some .busMisaligned
  | .write32 off _ => if off.toNat % 4 = 0 then none else some .busMisaligned
  | .read16 _ => some .busWidth
  | .write16 _ _ => some .busWidth
  | .otherWidth _ => some .busWidth

/-- `Execute(v)` (R54): an illegal word raises ILLEGAL_CMD before anything else (R50, R125). -/
def runCommand (v : Word) (s : State) : Host.Outcome State Fault Refusal :=
  match decode v with
  | .ok i => exec i s
  | .error _ => .next (s.abort .illegalCmd)

/-- The access is answered after all of its effects (R41). -/
def answered (r : Response) : Host.Outcome State Fault Refusal → Host.Outcome State Fault Refusal
  | .next s => .next (s.respond r)
  | .fault f => .fault f
  | .refused e => .refused e

/-- A performed 32-bit write (R16–R20, R33, R37). -/
def writeWord (off : Offset) (v : Word) (s : State) : Host.Outcome State Fault Refusal :=
  if inWindow off then .next (s.writeWindowWord (windowAddr off) v)
  else match regAt off with
    | some .cmd => runCommand v s
    | some r => .next (s.writeRegister r v)
    | none => .next s

/-- An access the bus performs (R33, R34). The widths it never performs leave the state as it is;
`performAccess` faults on them first. -/
def performed (a : HostAccess) (s : State) : Host.Outcome State Fault Refusal :=
  match a with
  | .read8 off => answered (.byte (s.readWindowByte (windowAddr off))) (.next s)
  | .read32 off => answered (.word (s.readWord off)) (.next s)
  | .write8 off v => answered .ack (.next (s.writeWindowByte (windowAddr off) v))
  | .write32 off v => answered .ack (writeWord off v s)
  | .read16 _ => .next s
  | .write16 _ _ => .next s
  | .otherWidth _ => .next s

/-- One host access: a bus error is a fault of the host agent (R131, I2), any other is performed. -/
def performAccess (a : HostAccess) (s : State) : Host.Outcome State Fault Refusal :=
  match busFault a with
  | some f => .fault f
  | none => performed a s

end Sys2Proof.Machine
end

