-- ==== Sys2Proof/Machine/Step.lean ====
section
/-! DEFINITION. One step of the machine: the next host access, in bus order (R13, R40). -/

namespace Sys2Proof.Machine

/-- The engine takes the oldest waiting host access and performs it. With none waiting it is idle and
nothing changes (R140, log 2). -/
def step (s : State) : Host.Outcome State Fault Refusal :=
  match s.hostQueue with
  | [] => .next s
  | a :: rest => performAccess a { s with hostQueue := rest }

/-- `s` with the command word `w` about to be written to CMD: the next host access is that write. -/
def State.withFetchWord (s : State) (nbits w : Nat) : State :=
  { s with hostQueue := .write32 Reg.cmd.offset (BitVec.ofNat 32 (w % 2 ^ nbits)) :: s.hostQueue }

end Sys2Proof.Machine
end

