-- ==== Sys2Proof/Machine/HostProgram.lean ====
section
/-! DEFINITION. The host-program notation (R52, R53): each statement as the bus accesses it makes, in order. -/

namespace Sys2Proof.Machine

/-- The window offset of DMEM byte `a` (R33). -/
def dmemOffset (a : Nat) : Offset := BitVec.ofNat 13 (0x1000 + a)

/-- `WR <reg>, <value>` (R52). -/
def hostWR (r : Reg) (v : Word) : List HostAccess := [.write32 r.offset v]

/-- `RD <reg>` (R52). -/
def hostRD (r : Reg) : List HostAccess := [.read32 r.offset]

/-- `WRB <a>, <bytes>` (R52): one 8-bit write per byte. -/
def hostWRB (a : Nat) (bs : List Byte) : List HostAccess :=
  bs.zipIdx.map (fun x => .write8 (dmemOffset (a + x.2)) x.1)

/-- `RDB <a>, <n>` (R52): n 8-bit reads. -/
def hostRDB (a n : Nat) : List HostAccess := (List.range n).map (fun k => .read8 (dmemOffset (a + k)))

/-- `CMD <mnemonic>[.<mod>…]` (R52): one 32-bit write of the command word. -/
def hostCMD (i : Instr) : List HostAccess := hostWR .cmd (encode i)

/-- `SRC <a>, <n>` (R53). -/
def hostSRC (a n : Word) : List HostAccess := hostWR .srcAddr a ++ hostWR .srcLen n

/-- `DST <a>` (R53). -/
def hostDST (a : Word) : List HostAccess := hostWR .dstAddr a

/-- `AUX <a>, <n>` (R53). -/
def hostAUX (a n : Word) : List HostAccess := hostWR .auxAddr a ++ hostWR .auxLen n

/-- `RUN <mn>, <sa>, <n>, <da>` (R53). -/
def hostRUN (i : Instr) (sa n da : Word) : List HostAccess := hostSRC sa n ++ hostDST da ++ hostCMD i

/-- `ACK` (R53): clear DONE and ERR. -/
def hostACK : List HostAccess := hostWR .status 0x00000003

/-- `CHECK` (R53). -/
def hostCHECK : List HostAccess := hostRD .status ++ hostRD .resLen ++ hostRD .resFlags

end Sys2Proof.Machine
end

