-- ==== Sys2Proof/Safety.lean ====
section
/-! DEFINITION. What a safe run is: the invariant every step keeps, and a host that makes no bus error. -/

namespace Sys2Proof.Machine

/-- What R15, R25–R27 and R70 say of a streaming context: at most 63 bytes are buffered, whole bytes are
counted, the count agrees with the buffer while ACTIVE (R27), and nothing is buffered once FINALIZED. -/
structure HashCtx.Ok {α : Type} (c : HashCtx α) : Prop where
  buf_lt : c.buf.length < 64
  whole_bytes : c.bitlen.toNat % 8 = 0
  active : c.phase = .active → c.buf.length = (c.bitlen >>> 3).toNat % 64
  finalized : c.phase = .finalized → c.buf = []

/-- The invariant of the machine. -/
structure State.Inv (s : State) : Prop where
  /-- the parameters are in R5's ranges -/
  params : s.params.wellFormed = true
  /-- DMEM is in canonical form -/
  dmem_wf : s.dmem.wf
  /-- no byte outside DMEM exists (R30) -/
  dmem_bound : ∀ c ∈ s.dmem, c.1 < s.params.dmemSize
  sha : s.sha.Ok
  rmd : s.rmd.Ok
  /-- RES_LEN counts bytes written to DMEM (R21) -/
  resLen_le : s.resLen.toNat ≤ s.params.dmemSize
  /-- RES_LEN and RES_FLAGS read 0 after an error (R126) -/
  failed : s.status.errcode ≠ .ok → s.resLen = 0 ∧ s.resFlags = ResFlags.zero
  /-- a valid key has no diagnostic (R22) -/
  valid_diag : s.resFlags.keyValid = true → s.resFlags.diag = .ok

/-- Every waiting access is one the bus performs (R34). -/
def State.busClean (s : State) : Bool := s.hostQueue.all (fun a => (busFault a).isNone)

/-- A step that neither faults nor is refused. -/
def State.stepSafe (s : State) : Prop := ∃ t, step s = .next t

end Sys2Proof.Machine
end

