-- ==== Sys2Proof/Certificates/Slice0/Obligations.lean ====
section
/-! DEFINITION. The statements for the provers, and the words they are written in. -/

namespace Sys2Proof.Claims

open Sys2Proof.Machine

/-- The `k` bytes of a number, most significant first: how examples write byte strings and texts. -/
def be (k n : Nat) : List Byte := (List.range k).map (fun i => BitVec.ofNat 8 (n >>> (8 * (k - 1 - i))))

/-- The SRC region lies in DMEM (R56). -/
def SrcFits (s : State) : Prop := s.operands.srcAddr.toNat + s.operands.srcLen.toNat ≤ s.params.dmemSize

/-- The AUX region lies in DMEM (R56). -/
def AuxFits (s : State) : Prop := s.operands.auxAddr.toNat + s.operands.auxLen.toNat ≤ s.params.dmemSize

/-- A DST region of `n` bytes lies in DMEM (R56). -/
def DstFits (s : State) (n : Nat) : Prop := s.operands.dstAddr.toNat + n ≤ s.params.dmemSize

/-- What no command changes: the parameters, CTRL, the operand registers and the model's own fields. -/
structure Kept (s t : State) : Prop where
  params : t.params = s.params
  ctrl : t.ctrl = s.ctrl
  operands : t.operands = s.operands
  hostQueue : t.hostQueue = s.hostQueue
  response : t.response = s.response
  draws : t.draws = s.draws

/-- `t` is `s` after a command that failed with `code` (R59). -/
structure Failed (s t : State) (code : ErrCode) : Prop extends Kept s t where
  sha : t.sha = s.sha
  rmd : t.rmd = s.rmd
  memory : ∀ a, t.dmem.read a = s.dmem.read a
  resLen : t.resLen = 0
  resFlags : t.resFlags = ResFlags.zero
  status : t.status = { done := true, err := true, errcode := code }

/-- The status of a command that succeeded (R58): DONE set, ERRCODE 0, ERR as it was. -/
structure Succeeded (s t : State) : Prop extends Kept s t where
  done : t.status.done = true
  err : t.status.err = s.status.err
  errcode : t.status.errcode = .ok

/-- `t` is `s` after a command that succeeded and wrote `out` at DST_ADDR; the contexts are left to the
statement. -/
structure Wrote (s t : State) (out : List Byte) (flags : ResFlags) : Prop extends Succeeded s t where
  resLen : t.resLen = BitVec.ofNat 32 out.length
  resFlags : t.resFlags = flags
  written : ∀ (k : Nat) (h : k < out.length), t.dmem.read (s.operands.dstAddr.toNat + k) = some out[k]
  elsewhere : ∀ a, a < s.operands.dstAddr.toNat ∨ s.operands.dstAddr.toNat + out.length ≤ a →
    t.dmem.read a = s.dmem.read a

/-- `t` is `s` after a command that succeeded and writes no output; the contexts are left to the
statement. -/
structure WroteNothing (s t : State) : Prop extends Succeeded s t where
  resLen : t.resLen = 0
  resFlags : t.resFlags = ResFlags.zero
  memory : ∀ a, t.dmem.read a = s.dmem.read a

/-- Neither streaming context changed. -/
def StreamsKept (s t : State) : Prop := t.sha = s.sha ∧ t.rmd = s.rmd

/-- The command ends with error `code` from `s`. -/
def FailsWith (i : Instr) (s : State) (code : ErrCode) : Prop := ∃ t, exec i s = .next t ∧ Failed s t code

/-- The command succeeds from `s`, writes `out`, sets `flags`, and leaves both streams. -/
def Gives (i : Instr) (s : State) (out : List Byte) (flags : ResFlags) : Prop :=
  ∃ t, exec i s = .next t ∧ Wrote s t out flags ∧ StreamsKept s t

/-- A command that reads SRC alone, has no length limit, and writes the `n` bytes `f src`. -/
def HashCommand (i : Instr) (f : List Byte → List Byte) (n : Nat) : Prop :=
  ∀ s : State,
    (¬ SrcFits s → FailsWith i s .rangeIn) ∧
    (SrcFits s → ¬ DstFits s n → FailsWith i s .rangeOut) ∧
    (SrcFits s → DstFits s n → (f s.srcBytes).length = n ∧ Gives i s (f s.srcBytes) ResFlags.zero)

/-- A command that reads SRC alone under a length limit, and writes `f src`. -/
def EncodeCommand (i : Instr) (limit : State → Prop) (f : List Byte → List Byte) : Prop :=
  ∀ s : State,
    (¬ limit s → FailsWith i s .length) ∧
    (limit s → ¬ SrcFits s → FailsWith i s .rangeIn) ∧
    (limit s → SrcFits s → ¬ DstFits s (f s.srcBytes).length → FailsWith i s .rangeOut) ∧
    (limit s → SrcFits s → DstFits s (f s.srcBytes).length → Gives i s (f s.srcBytes) ResFlags.zero)

/-- A command that reads SRC alone under a length limit, and writes what `f src` gives or fails with the
error it names. -/
def DecodeCommand (i : Instr) (limit : State → Prop) (f : List Byte → Except ErrCode (List Byte)) : Prop :=
  ∀ s : State,
    (¬ limit s → FailsWith i s .length) ∧
    (limit s → ¬ SrcFits s → FailsWith i s .rangeIn) ∧
    (∀ e, limit s → SrcFits s → f s.srcBytes = .error e → FailsWith i s e) ∧
    (∀ b, limit s → SrcFits s → f s.srcBytes = .ok b → ¬ DstFits s b.length → FailsWith i s .rangeOut) ∧
    (∀ b, limit s → SrcFits s → f s.srcBytes = .ok b → DstFits s b.length → Gives i s b ResFlags.zero)

/-- A codec function with its error codes (R105, R108). -/
def withCodes (f : List Byte → Except TextError (List Byte)) (t : List Byte) : Except ErrCode (List Byte) :=
  match f t with
  | .error e => .error e.errCode
  | .ok b => .ok b

/-- `DerParse` with its one error code (R116). -/
def derWithCode (b : List Byte) : Except ErrCode (List Byte) :=
  match derParse b with
  | none => .error .derFormat
  | some x => .ok x

/-- A command that imports a key: SRC under a limit, 32 bytes to DST, the flags from the import. -/
def ImportCommand (i : Instr) (limit : State → Prop) (f : List Byte → List Byte × ResFlags) : Prop :=
  ∀ s : State,
    (¬ limit s → FailsWith i s .length) ∧
    (limit s → ¬ SrcFits s → FailsWith i s .rangeIn) ∧
    (limit s → SrcFits s → ¬ DstFits s 32 → FailsWith i s .rangeOut) ∧
    (limit s → SrcFits s → DstFits s 32 →
      (f s.srcBytes).1.length = 32 ∧ Gives i s (f s.srcBytes).1 (f s.srcBytes).2)

/-- The command has an SRC operand (R46). -/
def readsSrc : Instr → Bool
  | .nop | .sha256Init | .rmd160Init | .sha256Final | .rmd160Final => false
  | .sha256Update | .rmd160Update | .sha256 | .sha256d | .rmd160 | .hash160 | .hmacSha256
  | .b58Enc | .b58Dec | .b58Checksum | .b58chkEnc | .b58chkDec
  | .wifEnc _ | .wifDec | .derEnc _ | .derDec | .keyrecEnc _ _ | .keyrecDec => true

/-- The command has an AUX operand (R46). -/
def readsAux : Instr → Bool
  | .hmacSha256 => true
  | .nop | .sha256Init | .rmd160Init | .sha256Final | .rmd160Final
  | .sha256Update | .rmd160Update | .sha256 | .sha256d | .rmd160 | .hash160
  | .b58Enc | .b58Dec | .b58Checksum | .b58chkEnc | .b58chkDec
  | .wifEnc _ | .wifDec | .derEnc _ | .derDec | .keyrecEnc _ _ | .keyrecDec => false

/-- The command writes DST (R46). -/
def writesDst : Instr → Bool
  | .nop | .sha256Init | .rmd160Init | .sha256Update | .rmd160Update => false
  | .sha256Final | .rmd160Final | .sha256 | .sha256d | .rmd160 | .hash160 | .hmacSha256
  | .b58Enc | .b58Dec | .b58Checksum | .b58chkEnc | .b58chkDec
  | .wifEnc _ | .wifDec | .derEnc _ | .derDec | .keyrecEnc _ _ | .keyrecDec => true

/-- The cases of R55 in which `LengthOK` is false. -/
def LengthBad (i : Instr) (s : State) : Prop :=
  let n := s.operands.srcLen.toNat
  ((i = .b58Enc ∨ i = .b58Dec ∨ i = .b58chkDec ∨ i = .wifDec) ∧ n > s.params.b58Max) ∨
  (i = .b58chkEnc ∧ n + 4 > s.params.b58Max) ∨
  (((∃ c, i = .wifEnc c) ∨ ∃ v c, i = .keyrecEnc v c) ∧ n ≠ 32) ∨
  ((∃ l, i = .derEnc l) ∧ n ≠ 64) ∨
  (i = .keyrecDec ∧ n ≠ 34)

/-- The MISUSE condition of R54. -/
def Misused (i : Instr) (s : State) : Prop :=
  ((i = .sha256Update ∨ i = .sha256Final) ∧ s.sha.phase = .finalized) ∨
  ((i = .rmd160Update ∨ i = .rmd160Final) ∧ s.rmd.phase = .finalized)

/-- The RANGE_IN condition of R54. -/
def RangeInBad (i : Instr) (s : State) : Prop :=
  (readsSrc i = true ∧ ¬ SrcFits s) ∨ (readsAux i = true ∧ ¬ AuxFits s)

/-- The data errors a command can raise (R124). -/
def dataErrors : Instr → List ErrCode
  | .b58Dec => [.b58Char]
  | .b58chkDec => [.b58Char, .chkShort, .chkMismatch]
  | .derDec => [.derFormat]
  | .nop | .sha256Init | .rmd160Init | .sha256Final | .rmd160Final
  | .sha256Update | .rmd160Update | .sha256 | .sha256d | .rmd160 | .hash160 | .hmacSha256
  | .b58Enc | .b58Checksum | .b58chkEnc
  | .wifEnc _ | .wifDec | .derEnc _ | .keyrecEnc _ _ | .keyrecDec => []

/-- The row of a command in the table of R124. -/
def mayRaise : Instr → List ErrCode
  | .nop | .sha256Init | .rmd160Init => []
  | .sha256Update | .rmd160Update => [.misuse, .rangeIn]
  | .sha256Final | .rmd160Final => [.misuse, .rangeOut]
  | .sha256 | .sha256d | .rmd160 | .hash160 => [.rangeIn, .rangeOut]
  | .hmacSha256 => [.rangeIn, .rangeOut]
  | .b58Enc | .b58chkEnc => [.length, .rangeIn, .rangeOut]
  | .b58Dec => [.length, .rangeIn, .b58Char, .rangeOut]
  | .b58Checksum => [.rangeIn, .rangeOut]
  | .b58chkDec => [.length, .rangeIn, .b58Char, .chkShort, .chkMismatch, .rangeOut]
  | .wifEnc _ | .keyrecEnc _ _ | .keyrecDec => [.length, .rangeIn, .rangeOut]
  | .wifDec => [.length, .rangeIn, .rangeOut]
  | .derEnc _ => [.length, .rangeIn, .rangeOut]
  | .derDec => [.rangeIn, .derFormat, .rangeOut]

/-- The register a table of R16 lists at each offset. -/
def registerMap : List (Nat × Reg) :=
  [(0x000, .id), (0x004, .ctrl), (0x008, .status), (0x00C, .cmd), (0x010, .srcAddr), (0x014, .srcLen),
   (0x018, .dstAddr), (0x01C, .auxAddr), (0x020, .auxLen), (0x024, .resLen), (0x028, .resFlags),
   (0x030, .capDmem), (0x034, .capB58)] ++
  [(0x040, .shaH 0), (0x044, .shaH 1), (0x048, .shaH 2), (0x04C, .shaH 3), (0x050, .shaH 4), (0x054, .shaH 5),
   (0x058, .shaH 6), (0x05C, .shaH 7), (0x060, .shaBuflen), (0x064, .shaBitlenLo), (0x068, .shaBitlenHi)] ++
  [(0x070, .rmdH 0), (0x074, .rmdH 1), (0x078, .rmdH 2), (0x07C, .rmdH 3), (0x080, .rmdH 4),
   (0x084, .rmdBuflen), (0x088, .rmdBitlenLo), (0x08C, .rmdBitlenHi)]

/-- The registers a host write stores to (R16: RW, and the write-1-to-clear bits of STATUS). -/
def writable : Reg → Bool
  | .ctrl | .status | .srcAddr | .srcLen | .dstAddr | .auxAddr | .auxLen => true
  | .id | .cmd | .resLen | .resFlags | .capDmem | .capB58 | .shaH _ | .shaBuflen | .shaBitlenLo | .shaBitlenHi
  | .rmdH _ | .rmdBuflen | .rmdBitlenLo | .rmdBitlenHi => false

/-- `s` with its next host access taken from the queue. -/
def popped (s : State) (rest : List HostAccess) : State := { s with hostQueue := rest }

/-- The register reads and writes at an offset of R16's register half, 4-byte aligned. -/
def RegisterOffset (off : Offset) : Prop := off.toNat < 0x1000 ∧ off.toNat % 4 = 0

end Sys2Proof.Claims

open Sys2Proof Sys2Proof.Machine Sys2Proof.Claims

/-! ### Encoding -/

/-- Every well-formed command survives encode and decode; a word that decodes is the encoding of what it
decodes to; so no bit of a word is dropped and no two words mean one command. -/
def Obligations.DecodeEncodeBijection : Prop :=
  (∀ i : Instr, i.wellFormed = true → decode (encode i) = .ok i) ∧
  (∀ (v : Word) (i : Instr), decode v = .ok i → encode i = v) ∧
  (∀ i j : Instr, encode i = encode j → i = j)

/-- R49: a word decodes exactly when it is legal, and exactly when one row of the opcode table matches it;
at most one row ever does. -/
def Obligations.LegalWordsAreTheTable : Prop :=
  ∀ v : Word,
    ((∃ i, decode v = .ok i) ↔
      v.extractLsb' 16 16 = 0 ∧ opAssigned (v.extractLsb' 0 8) = true ∧
        (v.extractLsb' 8 8) &&& ~~~ modMask (v.extractLsb' 0 8) = 0) ∧
    ((∃ i, decode v = .ok i) ↔ (opcodeRows.filter (fun r => v &&& r.mask == r.matchBits)).length = 1) ∧
    (opcodeRows.filter (fun r => v &&& r.mask == r.matchBits)).length ≤ 1

/-- A few words written out from R47, R48 and R52 decode to the commands they stand for. -/
def Obligations.SampleWordsDecode : Prop :=
  decode 0x00000000 = .ok .nop ∧ decode 0x00000003 = .ok .sha256Final ∧ decode 0x00000015 = .ok .hash160 ∧
  decode 0x00000006 = .ok .hmacSha256 ∧ decode 0x00000025 = .ok .b58chkDec ∧
  decode 0x00000131 = .ok (.wifEnc true) ∧ decode 0x00000133 = .ok (.derEnc true) ∧
  decode 0x00000135 = .ok (.keyrecEnc true false) ∧ decode 0x00000235 = .ok (.keyrecEnc false true)

/-! ### The step, the registers and reset -/

/-- A CMD write runs the command its word decodes to, once, and is acknowledged after it; a read of CMD
returns 0 (R19, R41). The model's choices in it (log 1, 5 and 11): the queue's pop before, and the response
and the next draw after. -/
def Obligations.StepRunsTheCommandWritten : Prop :=
  (∀ (s : State) (v : Word) (rest : List HostAccess) (i : Instr),
    s.hostQueue = .write32 0x00C v :: rest → decode v = .ok i →
    ∃ t, exec i (popped s rest) = .next t ∧ step s = .next (t.respond .ack)) ∧
  (∀ (s : State) (i : Instr) (rest : List HostAccess),
    s.hostQueue = .write32 0x00C (encode i) :: rest →
    ∃ t, exec i (popped s rest) = .next t ∧ step s = .next (t.respond .ack)) ∧
  (∀ (s : State) (rest : List HostAccess), s.hostQueue = .read32 0x00C :: rest →
    step s = .next ((popped s rest).respond (.word 0))) ∧
  (∀ (s : State) (v : Word) (rest : List HostAccess) (e : Illegal),
    s.hostQueue = .write32 0x00C v :: rest → decode v = .error e →
    ∃ t, Failed (popped s rest) t .illegalCmd ∧ step s = .next (t.respond .ack))

/-- R143's two columns: what power-on reset and soft reset leave. The first clause is the model's choice: that
`State.reset` is the instance with R5's default DMEM_SIZE and B58_MAX (log 7); its BASE is left open (log 8). -/
def Obligations.ResetValues : Prop :=
  (∃ b, State.reset = State.powerOn { dmemSize := 4096, b58Max := 256, base := b }) ∧
  (∀ p : Params,
    let s := State.powerOn p
    s.ctrl = ⟨false, false⟩ ∧ s.readRegister .ctrl = 0 ∧ s.status = ⟨false, false, .ok⟩ ∧ s.readRegister .status = 0 ∧
    s.operands = ⟨0, 0, 0, 0, 0⟩ ∧ s.resLen = 0 ∧ s.readRegister .resFlags = 0 ∧
    s.sha = ⟨⟨0x6a09e667, 0xbb67ae85, 0x3c6ef372, 0xa54ff53a, 0x510e527f, 0x9b05688c, 0x1f83d9ab, 0x5be0cd19⟩,
      [], 0, .active⟩ ∧
    s.rmd = ⟨⟨0x67452301, 0xefcdab89, 0x98badcfe, 0x10325476, 0xc3d2e1f0⟩, [], 0, .active⟩ ∧
    (∀ a, s.dmem.read a = none) ∧ s.readRegister .id = 0x44524331 ∧
    s.readRegister .capDmem = BitVec.ofNat 32 p.dmemSize ∧ s.readRegister .capB58 = BitVec.ofNat 32 p.b58Max ∧
    s.irq = false) ∧
  (∀ s : State,
    let t := s.softReset
    let u := State.powerOn s.params
    t.params = s.params ∧ t.ctrl = u.ctrl ∧ t.status = u.status ∧ t.operands = u.operands ∧ t.resLen = u.resLen ∧
    t.resFlags = u.resFlags ∧ t.sha = u.sha ∧ t.rmd = u.rmd ∧ (∀ a, t.dmem.read a = s.dmem.read a) ∧
    (∀ r ∈ [Reg.id, .capDmem, .capB58], t.readRegister r = s.readRegister r) ∧ t.irq = false)

/-- R17: what CTRL reads, what a write of it does, what its bits enable, and its reset value. -/
def Obligations.CtrlRegister : Prop :=
  (∀ s : State,
    (s.readRegister .ctrl).getLsbD 0 = false ∧ (s.readRegister .ctrl).getLsbD 1 = s.ctrl.ieDone ∧
    (s.readRegister .ctrl).getLsbD 2 = s.ctrl.ieErr ∧ (s.readRegister .ctrl).extractLsb' 3 29 = 0 ∧
    (s.irq = true ↔ (s.ctrl.ieDone = true ∧ s.status.done = true) ∨ (s.ctrl.ieErr = true ∧ s.status.err = true))) ∧
  (∀ (s : State) (v : Word) (rest : List HostAccess), s.hostQueue = .write32 0x004 v :: rest →
    (v.getLsbD 0 = true →
      step s = .next ((popped s rest).softReset.respond .ack) ∧
      (popped s rest).softReset.readRegister .ctrl = 0) ∧
    (v.getLsbD 0 = false →
      step s = .next ({ popped s rest with ctrl := { ieDone := v.getLsbD 1, ieErr := v.getLsbD 2 } }.respond .ack))) ∧
  (∀ p : Params, (State.powerOn p).readRegister .ctrl = 0)

/-- R18 and R123: the fields of STATUS, what a write of it clears, what every command sets (an illegal word
is a command too, R19), and the reset value. -/
def Obligations.StatusRegister : Prop :=
  (∀ s : State,
    let w := s.readRegister .status
    w.getLsbD 0 = s.status.done ∧ w.getLsbD 1 = s.status.err ∧ w.extractLsb' 2 6 = 0 ∧
    w.extractLsb' 8 8 = s.status.errcode.code ∧
    (w.getLsbD 16 = true ↔ s.sha.phase = .finalized) ∧ (w.getLsbD 17 = true ↔ s.rmd.phase = .finalized) ∧
    w.extractLsb' 18 14 = 0) ∧
  [ErrCode.ok, .illegalCmd, .misuse, .length, .rangeIn, .b58Char, .chkShort, .chkMismatch, .derFormat,
    .rangeOut].map ErrCode.code = [0x00, 0x01, 0x02, 0x03, 0x04, 0x05, 0x06, 0x07, 0x08, 0x09] ∧
  (∀ (s : State) (v : Word) (rest : List HostAccess), s.hostQueue = .write32 0x008 v :: rest →
    ∃ st : Status, step s = .next ({ popped s rest with status := st }.respond .ack) ∧
      st.done = (s.status.done && !v.getLsbD 0) ∧ st.err = (s.status.err && !v.getLsbD 1) ∧
      st.errcode = s.status.errcode) ∧
  (∀ (v : Word) (s : State), ∃ t, runCommand v s = .next t ∧ t.status.done = true ∧
    (t.status.err = true ↔ s.status.err = true ∨ t.status.errcode ≠ .ok)) ∧
  (∀ p : Params, (State.powerOn p).readRegister .status = 0)

/-- R20: an operand register stores all 32 bits, reads back, resets to 0, takes any value, and no command
writes it. -/
def Obligations.OperandRegisters : Prop :=
  (∀ (s : State) (r : Reg) (v : Word) (rest : List HostAccess),
    r ∈ [Reg.srcAddr, .srcLen, .dstAddr, .auxAddr, .auxLen] →
    s.hostQueue = .write32 r.offset v :: rest →
    ∃ t, step s = .next t ∧ t.readRegister r = v ∧
      (∀ r', r' ≠ r → t.readRegister r' = s.readRegister r') ∧
      (∀ a, t.dmem.read a = s.dmem.read a) ∧ t.sha = s.sha ∧ t.rmd = s.rmd) ∧
  (∀ (p : Params), ∀ r ∈ [Reg.srcAddr, .srcLen, .dstAddr, .auxAddr, .auxLen], (State.powerOn p).readRegister r = 0) ∧
  (∀ (i : Instr) (s t : State), exec i s = .next t → t.operands = s.operands)

/-- R21 and R22: RES_LEN and RES_FLAGS as read, and what every completion writes to them. -/
def Obligations.ResultRegisters : Prop :=
  (∀ s : State,
    let w := s.readRegister .resFlags
    s.readRegister .resLen = s.resLen ∧
    w.getLsbD 0 = s.resFlags.keyValid ∧ w.getLsbD 1 = s.resFlags.keyCompressed ∧ w.extractLsb' 2 6 = 0 ∧
    w.extractLsb' 8 4 = s.resFlags.diag.code ∧ w.extractLsb' 12 20 = 0) ∧
  [Diag.ok, .b58Char, .chkShort, .chkMismatch, .wifLength, .wifVersion, .wifMarker, .scalarInvalid,
    .storedInvalid].map Diag.code = [0, 1, 2, 3, 4, 5, 6, 7, 8] ∧
  (∀ (p : Params), (State.powerOn p).readRegister .resLen = 0 ∧ (State.powerOn p).readRegister .resFlags = 0) ∧
  (∀ (i : Instr) (s t : State), exec i s = .next t →
    (t.status.errcode ≠ .ok → t.resLen = 0 ∧ t.resFlags = ResFlags.zero) ∧
    (t.status.errcode = .ok → writesDst i = true → ∃ out : List Byte, t.resLen = BitVec.ofNat 32 out.length ∧
      t.dmem = s.dmem.writeBytes s.operands.dstAddr.toNat out) ∧
    (writesDst i = false → t.resLen = 0) ∧
    (i ≠ .wifDec → i ≠ .keyrecDec → t.resFlags = ResFlags.zero)) ∧
  (∀ s t : State,
    (exec .wifDec s = .next t → t.status.errcode = .ok → t.resFlags = (wifImport validateScalar s.srcBytes).2) ∧
    (exec .keyrecDec s = .next t → t.status.errcode = .ok →
      t.resFlags = (keyRecordImport validateScalar s.srcBytes).2)) ∧
  (∀ t : List Byte, (wifImport validateScalar t).2.diag ≠ .storedInvalid) ∧
  (∀ r : List Byte, (keyRecordImport validateScalar r).2.diag ∈ [Diag.ok, .scalarInvalid, .storedInvalid])

/-- R16 and R23: which register stands at each aligned register offset; a reserved offset reads 0 and
ignores a write; a read-only register ignores a write; the constants read as the spec says. -/
def Obligations.RegisterMap : Prop :=
  (∀ off : Offset, off.toNat < 0x1000 →
    regAt off = (registerMap.find? (fun x => x.1 == off.toNat)).map Prod.snd) ∧
  (∀ (s : State) (off : Offset) (rest : List HostAccess), RegisterOffset off → s.hostQueue = .read32 off :: rest →
    step s = .next ((popped s rest).respond (.word
      (match registerMap.find? (fun x => x.1 == off.toNat) with
        | some x => s.readRegister x.2
        | none => 0)))) ∧
  (∀ (s : State) (off : Offset) (v : Word) (rest : List HostAccess), RegisterOffset off →
    s.hostQueue = .write32 off v :: rest →
    (∀ x ∈ registerMap, x.1 = off.toNat → x.2 ≠ .cmd ∧ writable x.2 = false) →
    step s = .next ((popped s rest).respond .ack)) ∧
  (∀ s : State, s.readRegister .id = 0x44524331 ∧ s.readRegister .capDmem = BitVec.ofNat 32 s.params.dmemSize ∧
    s.readRegister .capB58 = BitVec.ofNat 32 s.params.b58Max) ∧
  (∀ p : Params,
    (registerMap.map Prod.snd).map (State.powerOn p).readRegister =
      [0x44524331, 0, 0, 0, 0, 0, 0, 0, 0, 0, 0, BitVec.ofNat 32 p.dmemSize, BitVec.ofNat 32 p.b58Max] ++
      [0x6a09e667, 0xbb67ae85, 0x3c6ef372, 0xa54ff53a, 0x510e527f, 0x9b05688c, 0x1f83d9ab, 0x5be0cd19, 0, 0, 0] ++
      [0x67452301, 0xefcdab89, 0x98badcfe, 0x10325476, 0xc3d2e1f0, 0, 0, 0])

/-- R24: the readback registers are views of the two contexts, and no host access changes a context but a
command and a soft reset. -/
def Obligations.ContextReadback : Prop :=
  (∀ s : State,
    (∀ i : Fin 8, s.readRegister (.shaH i) =
      [s.sha.H.h0, s.sha.H.h1, s.sha.H.h2, s.sha.H.h3, s.sha.H.h4, s.sha.H.h5, s.sha.H.h6, s.sha.H.h7].getD i 0) ∧
    (∀ i : Fin 5, s.readRegister (.rmdH i) =
      [s.rmd.H.h0, s.rmd.H.h1, s.rmd.H.h2, s.rmd.H.h3, s.rmd.H.h4].getD i 0) ∧
    (s.sha.buf.length < 64 → (s.readRegister .shaBuflen).toNat = s.sha.buf.length) ∧
    (s.rmd.buf.length < 64 → (s.readRegister .rmdBuflen).toNat = s.rmd.buf.length) ∧
    (s.readRegister .shaBuflen).extractLsb' 6 26 = 0 ∧ (s.readRegister .rmdBuflen).extractLsb' 6 26 = 0 ∧
    s.readRegister .shaBitlenHi ++ s.readRegister .shaBitlenLo = s.sha.bitlen ∧
    s.readRegister .rmdBitlenHi ++ s.readRegister .rmdBitlenLo = s.rmd.bitlen) ∧
  (∀ (s t : State) (a : HostAccess) (rest : List HostAccess), s.hostQueue = a :: rest →
    (∀ v, a ≠ .write32 0x00C v) → (∀ v : Word, v.getLsbD 0 = true → a ≠ .write32 0x004 v) →
    step s = .next t → t.sha = s.sha ∧ t.rmd = s.rmd)

/-- The interrupt line (R28's formula, R129): high exactly while an enabled STATUS bit is set, so that
clearing both bits drops it and a failed command raises it when either source is enabled. -/
def Obligations.InterruptLevel : Prop :=
  (∀ s : State, s.irq = true ↔
    (s.status.done = true ∧ s.ctrl.ieDone = true) ∨ (s.status.err = true ∧ s.ctrl.ieErr = true)) ∧
  (∀ (s : State) (rest : List HostAccess), s.hostQueue = hostACK ++ rest → ∃ t, step s = .next t ∧ t.irq = false) ∧
  (∀ (i : Instr) (s t : State) (code : ErrCode), exec i s = .next t → t.status.errcode = code → code ≠ .ok →
    (t.irq = true ↔ s.ctrl.ieDone = true ∨ s.ctrl.ieErr = true))

/-! ### The DMEM window and the bus -/

/-- R33: the DMEM window, byte by byte and as little-endian words, and its reserved part. What a read gives for
an UNWRITTEN byte (R31) is `State.readByte`'s free value, the model's choice (log 4). -/
def Obligations.DmemWindow : Prop :=
  ∀ (s : State) (off : Offset) (rest : List HostAccess) (a : Nat),
    s.params.wellFormed = true → off.toNat = 0x1000 + a →
    (∀ v : Byte, s.hostQueue = .write8 off v :: rest →
      ∃ t, step s = .next t ∧ (∀ r, t.readRegister r = s.readRegister r) ∧
        ∀ b, t.dmem.read b = if b = a ∧ a < s.params.dmemSize then some v else s.dmem.read b) ∧
    (s.hostQueue = .read8 off :: rest →
      step s = .next ((popped s rest).respond (.byte (if a < s.params.dmemSize then s.readByte a else 0)))) ∧
    (∀ v : Word, a % 4 = 0 → s.hostQueue = .write32 off v :: rest →
      ∃ t, step s = .next t ∧ (∀ r, t.readRegister r = s.readRegister r) ∧
        ∀ b, t.dmem.read b =
          if a ≤ b ∧ b < a + 4 ∧ a < s.params.dmemSize then some (v.extractLsb' (8 * (b - a)) 8)
          else s.dmem.read b) ∧
    (a % 4 = 0 → s.hostQueue = .read32 off :: rest →
      ∃ w : Word, step s = .next ((popped s rest).respond (.word w)) ∧
        ∀ k, k < 4 → w.extractLsb' (8 * k) 8 = if a < s.params.dmemSize then s.readByte (a + k) else 0)

/-- R34: which accesses the bus does not perform. Each is a fault of the host agent, so that no state
follows it; every other access has a next state. That nothing waiting leaves the state is the model's choice
(log 2). -/
def Obligations.BusErrors : Prop :=
  (∀ (s : State) (a : HostAccess) (rest : List HostAccess), s.hostQueue = a :: rest →
    ((∃ f, step s = .fault f) ↔
      (∃ off, a = .read16 off ∨ a = .otherWidth off ∨ (∃ v, a = .write16 off v) ∨
        ((a = .read8 off ∨ ∃ v, a = .write8 off v) ∧ off.toNat < 0x1000) ∨
        ((a = .read32 off ∨ ∃ v, a = .write32 off v) ∧ off.toNat % 4 ≠ 0))) ∧
    ((∃ f, step s = .fault f) ∨ ∃ t, step s = .next t)) ∧
  (∀ s : State, s.hostQueue = [] → step s = .next s)

/-- R37's first half: a read changes no state of the engine, whatever its offset. The three fields that
change are the model's own (log 1, 5 and 11). -/
def Obligations.ReadsChangeNothing : Prop :=
  ∀ (s t : State) (off : Offset) (rest : List HostAccess),
    s.hostQueue = .read8 off :: rest ∨ s.hostQueue = .read32 off :: rest → step s = .next t →
    t = { s with hostQueue := rest, response := t.response, draws := s.draws + 1 }

/-- R31 with R57: a byte nothing has written reads as the free value of the access's draw, keeps its mark,
and is drawn afresh by the next access; a command draws a byte once, even where SRC and AUX overlap. The
form of the free value and the draw counter are the model's choice (log 4 and 5). -/
def Obligations.UnwrittenBytes : Prop :=
  (∀ (p : Params) (a : Nat), (State.powerOn p).dmem.read a = none) ∧
  (∀ (s : State) (a : Nat), s.dmem.read a = none → s.readByte a = Config.freeByte s.draws a) ∧
  (∀ (s : State) (a : Nat) (v : Byte), s.dmem.read a = some v → s.readByte a = v) ∧
  (∀ (s : State) (off : Offset) (rest : List HostAccess) (a : Nat), off.toNat = 0x1000 + a → a < s.params.dmemSize →
    s.hostQueue = .read8 off :: .read8 off :: rest → s.dmem.read a = none →
    ∃ t u, step s = .next t ∧ t.response = .byte (Config.freeByte s.draws a) ∧ t.dmem.read a = none ∧
      step t = .next u ∧ u.response = .byte (Config.freeByte (s.draws + 1) a) ∧ u.dmem.read a = none) ∧
  (∀ (s : State) (k j : Nat), k < s.operands.srcLen.toNat → j < s.operands.auxLen.toNat →
    s.operands.srcAddr.toNat + k = s.operands.auxAddr.toNat + j → s.srcBytes[k]? = s.auxBytes[j]?) ∧
  (∀ (s t : State), step s = .next t → s.hostQueue ≠ [] → t.draws = s.draws + 1)

/-! ### The execution frame -/

/-- R59 (and R127): whatever command fails, from whatever state, the state after it is the state before,
but for RES_LEN, RES_FLAGS and STATUS. -/
def Obligations.FailedCommandsChangeNothing : Prop :=
  ∀ (i : Instr) (s t : State), exec i s = .next t → t.status.errcode ≠ .ok →
    Failed s t t.status.errcode ∧ t.dmem = s.dmem

/-- R58: what a successful command changes. Only its output region, only the context it names, and the
result and status registers. -/
def Obligations.CommittedCommandsFrame : Prop :=
  ∀ (i : Instr) (s t : State), s.params.wellFormed = true → exec i s = .next t → t.status.errcode = .ok →
    Succeeded s t ∧
    (∀ a, a < s.operands.dstAddr.toNat ∨ s.operands.dstAddr.toNat + t.resLen.toNat ≤ a →
      t.dmem.read a = s.dmem.read a) ∧
    (∀ a, s.operands.dstAddr.toNat ≤ a → a < s.operands.dstAddr.toNat + t.resLen.toNat →
      (t.dmem.read a).isSome = true) ∧
    (writesDst i = true → DstFits s t.resLen.toNat) ∧
    (writesDst i = false → t.dmem = s.dmem ∧ t.resLen = 0) ∧
    (i ≠ .sha256Init → i ≠ .sha256Update → i ≠ .sha256Final → t.sha = s.sha) ∧
    (i ≠ .rmd160Init → i ≠ .rmd160Update → i ≠ .rmd160Final → t.rmd = s.rmd) ∧
    (i ≠ .wifDec → i ≠ .keyrecDec → t.resFlags = ResFlags.zero)

/-- R124: the error codes each command can end with. -/
def Obligations.ErrorCodesPerCommand : Prop :=
  ∀ (i : Instr) (s t : State), exec i s = .next t → t.status.errcode = .ok ∨ t.status.errcode ∈ mayRaise i

/-- R55: a command ends with LENGTH exactly in the cases the rule lists, whatever its region. -/
def Obligations.LengthLimits : Prop :=
  ∀ (i : Instr) (s : State), ∃ t, exec i s = .next t ∧ (t.status.errcode = .length ↔ LengthBad i s)

/-- R125: of several errors the first in the order is reported: MISUSE, LENGTH, RANGE_IN, data errors,
RANGE_OUT. ILLEGAL_CMD is before all of them: such a word is no command. -/
def Obligations.ErrorPriority : Prop :=
  (∀ (v : Word) (e : Illegal) (s : State), decode v = .error e →
    ∃ t, runCommand v s = .next t ∧ Failed s t .illegalCmd) ∧
  ∀ (i : Instr) (s : State), ∃ t, exec i s = .next t ∧
    (t.status.errcode = .misuse ↔ Misused i s) ∧
    (t.status.errcode = .length ↔ ¬ Misused i s ∧ LengthBad i s) ∧
    (t.status.errcode = .rangeIn ↔ ¬ Misused i s ∧ ¬ LengthBad i s ∧ RangeInBad i s) ∧
    (t.status.errcode ∈ dataErrors i → ¬ Misused i s ∧ ¬ LengthBad i s ∧ ¬ RangeInBad i s) ∧
    (t.status.errcode = .rangeOut → ¬ Misused i s ∧ ¬ LengthBad i s ∧ ¬ RangeInBad i s ∧ writesDst i = true) ∧
    (i = .b58Dec → ¬ LengthBad i s → ¬ RangeInBad i s → (∃ c ∈ s.srcBytes, idx c = none) →
      t.status.errcode = .b58Char) ∧
    (∀ e, i = .b58chkDec → ¬ LengthBad i s → ¬ RangeInBad i s → decodeCheck s.srcBytes = .error e →
      t.status.errcode = e.errCode) ∧
    (i = .derDec → ¬ RangeInBad i s → derParse s.srcBytes = none → t.status.errcode = .derFormat)

/-- R46 and R28: a command's effects do not depend on the registers its form does not name, nor on CTRL,
STATUS, RES_LEN or RES_FLAGS, which no command reads. -/
def Obligations.CommandsIgnoreUnnamedRegisters : Prop :=
  ∀ (i : Instr) (s : State) (c : Ctrl) (st : Status) (rl : Word) (rf : ResFlags) (o : Operands),
    (readsSrc i = true → o.srcAddr = s.operands.srcAddr ∧ o.srcLen = s.operands.srcLen) →
    (readsAux i = true → o.auxAddr = s.operands.auxAddr ∧ o.auxLen = s.operands.auxLen) →
    (writesDst i = true → o.dstAddr = s.operands.dstAddr) →
    ∃ t u, exec i s = .next t ∧
      exec i { s with ctrl := c, status := st, resLen := rl, resFlags := rf, operands := o } = .next u ∧
      u.dmem = t.dmem ∧ u.sha = t.sha ∧ u.rmd = t.rmd ∧ u.resLen = t.resLen ∧ u.resFlags = t.resFlags ∧
      u.status.done = t.status.done ∧ u.status.errcode = t.status.errcode

/-! ### The commands -/

/-- R64. NOP never fails, and does only the completion bookkeeping. -/
def Obligations.NopCompletes : Prop :=
  ∀ s : State, ∃ t, exec .nop s = .next t ∧ WroteNothing s t ∧ StreamsKept s t

/-- R73. SHA256_INIT never fails, in either phase. -/
def Obligations.Sha256InitCompletes : Prop :=
  ∀ s : State, ∃ t, exec .sha256Init s = .next t ∧ WroteNothing s t ∧ t.rmd = s.rmd ∧
    t.sha = ⟨⟨0x6a09e667, 0xbb67ae85, 0x3c6ef372, 0xa54ff53a, 0x510e527f, 0x9b05688c, 0x1f83d9ab, 0x5be0cd19⟩,
      [], 0, .active⟩

/-- R74. SHA256_UPDATE absorbs SRC. -/
def Obligations.Sha256UpdateAbsorbs : Prop :=
  (∀ s : State,
    (s.sha.phase = .finalized → FailsWith .sha256Update s .misuse) ∧
    (s.sha.phase = .active → ¬ SrcFits s → FailsWith .sha256Update s .rangeIn) ∧
    (s.sha.phase = .active → SrcFits s →
      ∃ t, exec .sha256Update s = .next t ∧ WroteNothing s t ∧ t.rmd = s.rmd ∧ t.sha = absorb256 s.sha s.srcBytes)) ∧
  (∀ c : HashCtx Words8, absorb256 c [] = c) ∧
  absorb256 init256 (List.replicate 70 0x61) =
    ⟨⟨0xdf5bb81c, 0xe81e0626, 0xfb45a894, 0x4fd40f31, 0xb25e6816, 0xd6d499c1, 0xab904929, 0x00635e66⟩,
      List.replicate 6 0x61, 560, .active⟩

/-- R75. SHA256_FINAL writes the digest of the context and finalizes it. -/
def Obligations.Sha256FinalWritesDigest : Prop :=
  (∀ s : State,
    (s.sha.phase = .finalized → FailsWith .sha256Final s .misuse) ∧
    (s.sha.phase = .active → ¬ DstFits s 32 → FailsWith .sha256Final s .rangeOut) ∧
    (s.sha.phase = .active → DstFits s 32 →
      ∃ t, exec .sha256Final s = .next t ∧ (digest256 t.sha).length = 32 ∧ Wrote s t (digest256 t.sha) ResFlags.zero ∧
        t.rmd = s.rmd ∧ t.sha = finish256 s.sha ∧ t.sha.phase = .finalized ∧ t.sha.buf = [] ∧
        t.sha.bitlen = s.sha.bitlen)) ∧
  (finish256 (absorb256 init256 (be 3 0x616263))).H =
    ⟨0xba7816bf, 0x8f01cfea, 0x414140de, 0x5dae2223, 0xb00361a3, 0x96177a9c, 0xb410ff61, 0xf20015ad⟩

/-- R76. SHA256 writes the digest of SRC and leaves both streams. -/
def Obligations.Sha256WritesDigest : Prop :=
  HashCommand .sha256 sha256 32 ∧
  sha256 [] = be 32 0xe3b0c44298fc1c149afbf4c8996fb92427ae41e4649b934ca495991b7852b855 ∧
  sha256 (be 3 0x616263) = be 32 0xba7816bf8f01cfea414140de5dae2223b00361a396177a9cb410ff61f20015ad

/-- R90. SHA256D writes the double hash of SRC. -/
def Obligations.Sha256dWritesDigest : Prop :=
  HashCommand .sha256d (fun m => sha256 (sha256 m)) 32 ∧
  sha256d [] = be 32 0x5df6e0e2761359d30a8275058e299fcc0381534545f55cf43e41983f5d4c9456 ∧
  sha256d (be 3 0x616263) = be 32 0x4f8b42c22dd3729b519ba6f68d2da7cc5b2d606d05daed5ad5128cc03e6c6358

/-- R86. RMD160_INIT never fails, in either phase. -/
def Obligations.Rmd160InitCompletes : Prop :=
  ∀ s : State, ∃ t, exec .rmd160Init s = .next t ∧ WroteNothing s t ∧ t.sha = s.sha ∧
    t.rmd = ⟨⟨0x67452301, 0xefcdab89, 0x98badcfe, 0x10325476, 0xc3d2e1f0⟩, [], 0, .active⟩

/-- R87. RMD160_UPDATE absorbs SRC. -/
def Obligations.Rmd160UpdateAbsorbs : Prop :=
  (∀ s : State,
    (s.rmd.phase = .finalized → FailsWith .rmd160Update s .misuse) ∧
    (s.rmd.phase = .active → ¬ SrcFits s → FailsWith .rmd160Update s .rangeIn) ∧
    (s.rmd.phase = .active → SrcFits s →
      ∃ t, exec .rmd160Update s = .next t ∧ WroteNothing s t ∧ t.sha = s.sha ∧ t.rmd = absorb160 s.rmd s.srcBytes)) ∧
  (∀ c : HashCtx Words5, absorb160 c [] = c) ∧
  absorb160 init160 (List.replicate 70 0x61) =
    ⟨⟨0xd42339f0, 0xce5b9f6f, 0x2874a075, 0xdf67aaf1, 0xc6c1be1c⟩, List.replicate 6 0x61, 560, .active⟩

/-- R88. RMD160_FINAL writes the digest of the context and finalizes it. -/
def Obligations.Rmd160FinalWritesDigest : Prop :=
  (∀ s : State,
    (s.rmd.phase = .finalized → FailsWith .rmd160Final s .misuse) ∧
    (s.rmd.phase = .active → ¬ DstFits s 20 → FailsWith .rmd160Final s .rangeOut) ∧
    (s.rmd.phase = .active → DstFits s 20 →
      ∃ t, exec .rmd160Final s = .next t ∧ (digest160 t.rmd).length = 20 ∧ Wrote s t (digest160 t.rmd) ResFlags.zero ∧
        t.sha = s.sha ∧ t.rmd = finish160 s.rmd ∧ t.rmd.phase = .finalized ∧ t.rmd.buf = [] ∧
        t.rmd.bitlen = s.rmd.bitlen)) ∧
  (finish160 (absorb160 init160 (be 3 0x616263))).H.h0 = 0xf708b28e ∧
  digest160 (finish160 (absorb160 init160 (be 3 0x616263))) = be 20 0x8eb208f7e05d987a9b044a8e98c6b087f15a0bfc

/-- R89. RMD160 writes the RIPEMD-160 digest of SRC and leaves both streams. -/
def Obligations.Rmd160WritesDigest : Prop :=
  HashCommand .rmd160 rmd160 20 ∧
  rmd160 [] = be 20 0x9c1185a5c5e9fc54612808977ee8f548b2258d31 ∧
  rmd160 (be 3 0x616263) = be 20 0x8eb208f7e05d987a9b044a8e98c6b087f15a0bfc

/-- R91. HASH160 writes RIPEMD-160 of SHA-256 of SRC. -/
def Obligations.Hash160WritesDigest : Prop :=
  HashCommand .hash160 (fun m => rmd160 (sha256 m)) 20 ∧
  hash160 [] = be 20 0xb472a266d0bd89c13706a4132ccfb16f7c3b9fcb ∧
  hash160 (be 33 0x0279be667ef9dcbbac55a06295ce870b07029bfcdb2dce28d959f2815b16f81798) =
    be 20 0x751e76e8199196d454941c45d1b3a323f1433bd6

/-- R92 and R93. HMAC_SHA256 writes the HMAC of SRC under the key AUX. -/
def Obligations.HmacWritesDigest : Prop :=
  (∀ s : State,
    (¬ SrcFits s ∨ ¬ AuxFits s → FailsWith .hmacSha256 s .rangeIn) ∧
    (SrcFits s → AuxFits s → ¬ DstFits s 32 → FailsWith .hmacSha256 s .rangeOut) ∧
    (SrcFits s → AuxFits s → DstFits s 32 →
      (hmac256 s.auxBytes s.srcBytes).length = 32 ∧
      Gives .hmacSha256 s (hmac256 s.auxBytes s.srcBytes) ResFlags.zero)) ∧
  (∀ key data : List Byte, ∃ k0 : List Byte, k0.length = 64 ∧
    (key.length ≤ 64 → k0 = key ++ List.replicate (64 - key.length) 0) ∧
    (key.length > 64 → k0 = sha256 key ++ List.replicate 32 0) ∧
    hmac256 key data =
      sha256 (k0.map (fun x => x ^^^ 0x5c) ++ sha256 (k0.map (fun x => x ^^^ 0x36) ++ data))) ∧
  (∀ key data : List Byte, key.length > 64 → hmac256 key data = hmac256 (sha256 key) data) ∧
  hmac256 (List.replicate 20 0x0b) (be 8 0x4869205468657265) =
    be 32 0xb0344c61d8db38535ca8afceaf0bf12b881dc200c9833da726e9376c2e32cff7

/-- R104. B58_ENC writes the text of SRC. -/
def Obligations.B58EncWritesText : Prop :=
  EncodeCommand .b58Enc (fun s => s.operands.srcLen.toNat ≤ s.params.b58Max) base58Encode ∧
  base58Encode [] = [] ∧ (∀ n, base58Encode (List.replicate n 0x00) = List.replicate n 0x31) ∧
  base58Encode [0x3a] = be 2 0x3231 ∧ base58Encode (be 3 0x626262) = be 4 0x61336756

/-- R105. B58_DEC writes the bytes of the text SRC; it succeeds on every text of symbols. -/
def Obligations.B58DecWritesBytes : Prop :=
  DecodeCommand .b58Dec (fun s => s.operands.srcLen.toNat ≤ s.params.b58Max) (withCodes base58Decode) ∧
  (∀ t : List Byte, (∀ c ∈ t, idx c ≠ none) ↔ ∃ b, base58Decode t = .ok b) ∧
  (∀ t : List Byte, (∃ c ∈ t, idx c = none) → base58Decode t = .error .b58Char) ∧
  (∀ s : State, s.operands.srcLen.toNat ≤ s.params.b58Max → SrcFits s → (∀ c ∈ s.srcBytes, idx c ≠ none) →
    DstFits s s.operands.srcLen.toNat → ∃ b, base58Decode s.srcBytes = .ok b ∧ Gives .b58Dec s b ResFlags.zero) ∧
  base58Decode [] = .ok [] ∧ base58Decode [0x31] = .ok [0x00] ∧
  base58Decode [0x31, 0x31, 0x31] = .ok [0x00, 0x00, 0x00] ∧ base58Decode (be 3 0x31317a) = .ok [0x00, 0x00, 0x39] ∧
  (∀ c ∈ ([0x30, 0x4f, 0x49, 0x6c, 0x20, 0x00] : List Byte), idx c = none) ∧
  base58Decode (be 2 0x3267) = .ok [0x61]

/-- R106. B58_CHECKSUM writes the first four bytes of the double hash of SRC. -/
def Obligations.B58ChecksumWritesFourBytes : Prop :=
  HashCommand .b58Checksum (fun b => (sha256 (sha256 b)).take 4) 4 ∧
  base58Checksum [] = [0x5d, 0xf6, 0xe0, 0xe2] ∧ base58Checksum (be 3 0x616263) = [0x4f, 0x8b, 0x42, 0xc2]

/-- R107. B58CHK_ENC writes the text of SRC with its checksum. -/
def Obligations.B58chkEncWritesText : Prop :=
  EncodeCommand .b58chkEnc (fun s => s.operands.srcLen.toNat + 4 ≤ s.params.b58Max)
    (fun p => base58Encode (p ++ base58Checksum p)) ∧
  (∀ p : List Byte, leadingCount 0x31 (encodeCheck p) = leadingCount 0x00 (p ++ base58Checksum p)) ∧
  encodeCheck [] = be 6 0x33514a6d6e68 ∧ encodeCheck [0x00] = be 6 0x315768346268 ∧
  encodeCheck (be 21 0x00751e76e8199196d454941c45d1b3a323f1433bd6) =
    be 34 0x314267475a3974634e34726d394b427a446e374b7072517a3837535a323653414d48

/-- R108. B58CHK_DEC writes the payload of the text SRC, or fails with the code of its first bad check. -/
def Obligations.B58chkDecWritesPayload : Prop :=
  DecodeCommand .b58chkDec (fun s => s.operands.srcLen.toNat ≤ s.params.b58Max) (withCodes decodeCheck) ∧
  decodeCheck [] = .error .chkShort ∧ decodeCheck (be 2 0x3267) = .error .chkShort ∧
  decodeCheck (be 6 0x33514a6d6e68) = .ok [] ∧ decodeCheck (be 4 0x31313131) = .error .chkMismatch ∧
  decodeCheck (be 10 0x34683363365248353252) = .ok (be 3 0x616263)

/-- R110. WIF_ENC writes the text of the scalar in SRC, 51 symbols, or 52 with the compressed marker. -/
def Obligations.WifEncWritesText : Prop :=
  (∀ c : Bool, EncodeCommand (.wifEnc c) (fun s => s.operands.srcLen.toNat = 32)
    (fun k => encodeCheck ([0x80] ++ k ++ (if c then [0x01] else [])))) ∧
  (∀ (k : List Byte) (c : Bool), k.length = 32 → (wifExport k c).length = if c then 52 else 51) ∧
  wifExport (be 32 1) false =
    be 51 0x354870486167543635545a7a473150483343537536336b3844627076443873356970346e4542336b45737265416e6368754466 ∧
  wifExport (be 32 1) true =
    be 52 0x4b77446942663839516747626a45684b6e68584a7548374c72636956725a693371596a6764394d3772465537337356486e6f576e

/-- R111 and R112. WIF_DEC imports the text SRC: a bad text is no error, and every invalid key is the
all-zero sentinel with the diagnostic of the first check that fails. -/
def Obligations.WifDecImportsKey : Prop :=
  ImportCommand .wifDec (fun s => s.operands.srcLen.toNat ≤ s.params.b58Max) (wifImport validateScalar) ∧
  (∀ (valid : List Byte → Bool) (t : List Byte),
    (decodeCheck t = .error .b58Char → wifImport valid t = (List.replicate 32 0, ⟨false, false, .b58Char⟩)) ∧
    (decodeCheck t = .error .chkShort → wifImport valid t = (List.replicate 32 0, ⟨false, false, .chkShort⟩)) ∧
    (decodeCheck t = .error .chkMismatch → wifImport valid t = (List.replicate 32 0, ⟨false, false, .chkMismatch⟩)) ∧
    (∀ p, decodeCheck t = .ok p →
      (p.length ≠ 33 ∧ p.length ≠ 34 → wifImport valid t = (List.replicate 32 0, ⟨false, false, .wifLength⟩)) ∧
      (p.length = 33 ∨ p.length = 34 → p.head? ≠ some 0x80 →
        wifImport valid t = (List.replicate 32 0, ⟨false, false, .wifVersion⟩)) ∧
      (p.length = 34 → p.head? = some 0x80 → p.getLast? ≠ some 0x01 →
        wifImport valid t = (List.replicate 32 0, ⟨false, false, .wifMarker⟩)) ∧
      (∀ k, k.length = 32 → p = [0x80] ++ k ∨ p = [0x80] ++ k ++ [0x01] →
        (valid k = false → wifImport valid t = (List.replicate 32 0, ⟨false, false, .scalarInvalid⟩)) ∧
        (valid k = true → wifImport valid t = (k, ⟨true, p.length == 34, .ok⟩))))) ∧
  wifImport validateScalar [] = (List.replicate 32 0, ⟨false, false, .chkShort⟩) ∧
  validateScalar (List.replicate 32 0) = false

/-- R115 with R113 and R114. DER_ENC writes the DER bytes of r ‖ s. -/
def Obligations.DerEncWritesDer : Prop :=
  (∀ l : Bool, EncodeCommand (.derEnc l) (fun s => s.operands.srcLen.toNat = 64)
    (fun rs => derEncode l (rs.take 32) (rs.drop 32))) ∧
  (∀ (l : Bool) (r s : List Byte), r.length = 32 → s.length = 32 →
    ∃ R S : List Byte, R = derInt l r ∧ S = derInt l s ∧
      derEncode l r s = [0x30, BitVec.ofNat 8 (4 + R.length + S.length), 0x02, BitVec.ofNat 8 R.length] ++ R ++
        ([0x02, BitVec.ofNat 8 S.length] ++ S) ∧
      8 ≤ (derEncode l r s).length ∧ (derEncode l r s).length ≤ (if l then 70 else 72)) ∧
  (∀ (l : Bool) (x : List Byte), x.length = 32 →
    intBe (derInt l x) = intBe x ∧ 1 ≤ (derInt l x).length ∧ (derInt l x).length ≤ (if l then 32 else 33) ∧
    (l = false → ((derInt l x).headD 0).toNat < 0x80) ∧
    (∀ b c rest, derInt l x = b :: c :: rest → b = 0 → l = false ∧ 0x80 ≤ c.toNat)) ∧
  (∀ l : Bool, derEncode l (be 32 0) (be 32 0) = be 8 0x3006020100020100) ∧
  (∀ l : Bool, derEncode l (be 32 1) (be 32 2) = be 8 0x3006020101020102) ∧
  derEncode false (be 32 0x80) (be 32 0x7f) = be 9 0x30070202008002017f ∧
  derEncode true (be 32 0x80) (be 32 0x7f) = be 8 0x300602018002017f ∧
  derEncode false (List.replicate 32 0xff) (List.replicate 32 0xff) =
    be 5 0x3046022100 ++ List.replicate 32 0xff ++ be 3 0x022100 ++ List.replicate 32 0xff ∧
  derEncode true (List.replicate 32 0xff) (List.replicate 32 0xff) =
    be 4 0x30440220 ++ List.replicate 32 0xff ++ be 2 0x0220 ++ List.replicate 32 0xff

/-- R117. DER_DEC writes r ‖ s, and reads back every signature DER_ENC writes, with the padding or
without. -/
def Obligations.DerDecWritesSignature : Prop :=
  DecodeCommand .derDec (fun _ => True) derWithCode ∧
  (∀ b x : List Byte, derParse b = some x → x.length = 64) ∧
  (∀ (l : Bool) (r s : List Byte), r.length = 32 → s.length = 32 → derParse (derEncode l r s) = some (r ++ s)) ∧
  derParse (be 8 0x30060201ff020180) = some (be 32 0xff ++ be 32 0x80) ∧
  derParse (be 5 0x3026022100 ++ List.replicate 32 0xff ++ be 3 0x020101) = some (List.replicate 32 0xff ++ be 32 1) ∧
  derParse (be 8 0x3106020101020102) = none ∧ derParse (be 8 0x3006030101020102) = none ∧
  derParse (be 8 0x3006020001020102) = none ∧ derParse (be 9 0x300602010002010000) = none ∧
  derParse (be 8 0x3006020101020102) = some (be 32 1 ++ be 32 2)

/-- R119 with R118. KEYREC_ENC writes the 34-byte record. -/
def Obligations.KeyrecEncWritesRecord : Prop :=
  (∀ v c : Bool, EncodeCommand (.keyrecEnc v c) (fun s => s.operands.srcLen.toNat = 32)
    (fun k => [if v then 0x01 else 0x00, if c then 0x01 else 0x00] ++ k)) ∧
  (∀ (v c : Bool) (k : List Byte), k.length = 32 → (keyRecord v c k).length = 34) ∧
  keyRecord true true (be 32 2) = be 34 (0x0101 <<< 256 + 2)

/-- R120 with R118. KEYREC_DEC writes the stored scalar, and forces the valid flag off for an invalid one. -/
def Obligations.KeyrecDecImportsKey : Prop :=
  ImportCommand .keyrecDec (fun s => s.operands.srcLen.toNat = 34) (keyRecordImport validateScalar) ∧
  (∀ (valid : List Byte → Bool) (vb cb : Byte) (k : List Byte), k.length = 32 →
    keyRecordImport valid ([vb, cb] ++ k) =
      (k, { keyValid := decide (vb ≠ 0) && valid k
            keyCompressed := decide (cb ≠ 0)
            diag := if vb = 0 then .storedInvalid else if valid k = false then .scalarInvalid else .ok })) ∧
  keyRecordImport validateScalar (be 34 (0x0101 <<< 256)) = (be 32 0, ⟨false, true, .scalarInvalid⟩) ∧
  (∀ valid : List Byte → Bool, valid (be 32 2) = true →
    keyRecordImport valid (be 34 (0x0101 <<< 256 + 2)) = (be 32 2, ⟨true, true, .ok⟩))

/-! ### The algorithms -/

/-- R72 and R85: splitting a message over UPDATE commands, in any way, changes neither the context nor the
digest, for either engine; and the bit count is the sum modulo 2^64. -/
def Obligations.ChunkingDoesNotMatter : Prop :=
  (∀ (c : HashCtx Words8) (a b : List Byte), absorb256 (absorb256 c a) b = absorb256 c (a ++ b)) ∧
  (∀ (c : HashCtx Words5) (a b : List Byte), absorb160 (absorb160 c a) b = absorb160 c (a ++ b)) ∧
  (∀ (c : HashCtx Words8) (chunks : List (List Byte)), chunks.foldl absorb256 c = absorb256 c chunks.flatten) ∧
  (∀ chunks : List (List Byte), digest256 (finish256 (chunks.foldl absorb256 init256)) = sha256 chunks.flatten) ∧
  (∀ chunks : List (List Byte), digest160 (finish160 (chunks.foldl absorb160 init160)) = rmd160 chunks.flatten) ∧
  (∀ (c : HashCtx Words8) (m : List Byte), (absorb256 c m).bitlen.toNat = (c.bitlen.toNat + 8 * m.length) % 2 ^ 64)

/-- R150 (informative) and R70: how many compressions the hash engine's own code makes. Counted by running
that code with a compression function that counts: `floor((n + 8) / 64) + 1` for `n` bytes from a fresh
context, one in a finalization with 0 to 55 bytes buffered, two with 56 to 63. -/
def Obligations.CompressionCount : Prop :=
  (∀ (lenField : BitVec 64 → List Byte) (m : List Byte),
    let count : Nat → List Byte → Nat := fun k _ => k + 1
    (((HashCtx.init 0).absorb count m).finish count lenField).H = (m.length + 8) / 64 + 1) ∧
  (∀ (lenField : BitVec 64 → List Byte) (c : HashCtx Nat), c.buf.length < 64 →
    (c.finish (fun k _ => k + 1) lenField).H = if c.buf.length ≤ 55 then c.H + 1 else c.H + 2)

/-- R69 and R70: every block the engine compresses is exactly 64 bytes, whatever the message: a compression
function that differs on other lengths gives the same digest. -/
def Obligations.BlocksAreWhole : Prop :=
  ∀ (α : Type) (f g : α → List Byte → α) (lenField : BitVec 64 → List Byte) (iv : α) (m : List Byte),
    (∀ n, (lenField n).length = 8) → (∀ h b, b.length = 64 → f h b = g h b) →
    ((HashCtx.init iv).absorb f m).finish f lenField = ((HashCtx.init iv).absorb g m).finish g lenField

/-- R69 and R70 (R83 and R84): streaming is hashing the padded message. From a fresh context, absorbing `m` and
finalizing compresses exactly the 64-byte blocks of `m ‖ 0x80 ‖ 0x00… ‖ length`, in order, whatever the
compression function; the zero bytes fill up to the next multiple of 64. -/
def Obligations.StreamingHashesPaddedBlocks : Prop :=
  ∀ (α : Type) (f : α → List Byte → α) (lenField : BitVec 64 → List Byte) (iv : α) (m : List Byte),
    (∀ n, (lenField n).length = 8) →
    let padded := m ++ [0x80] ++ List.replicate ((119 - m.length % 64) % 64) 0x00 ++
      lenField (BitVec.ofNat 64 (8 * m.length))
    padded.length = 64 * ((m.length + 8) / 64 + 1) ∧
    (((HashCtx.init iv).absorb f m).finish f lenField).H =
      ((List.range (padded.length / 64)).map (fun i => (padded.drop (64 * i)).take 64)).foldl f iv

/-- R100: the Base58 round trip, both ways. -/
def Obligations.Base58RoundTrip : Prop :=
  (∀ x : List Byte, base58Decode (base58Encode x) = .ok x) ∧
  (∀ t : List Byte, (∃ b, base58Decode t = .ok b ∧ base58Encode b = t) ↔ ∀ c ∈ t, idx c ≠ none) ∧
  (∀ t : List Byte, (∃ x, base58Encode x = t) ↔ ∀ c ∈ t, idx c ≠ none) ∧
  (∀ x : List Byte, leadingCount 0x31 (base58Encode x) = leadingCount 0x00 x)

/-- R98: the source's fixed-width buffers give the results of the exact rules; they never overflow. -/
def Obligations.Base58BuffersAgree : Prop :=
  (∀ t : List Byte, base58DecodeBuffered t = base58Decode t) ∧
  (∀ b : List Byte, base58EncodeBuffered b = base58Encode b)

/-- R99: the output lengths of the codec. -/
def Obligations.Base58Lengths : Prop :=
  (∀ b : List Byte, (base58Encode b).length ≤
    leadingCount 0x00 b + ceilMilli 1366 (b.length - leadingCount 0x00 b)) ∧
  (∀ t b : List Byte, base58Decode t = .ok b → b.length ≤ t.length)

/-- R103's first consequence with R101 and R102: Base58Check reads back what it writes. -/
def Obligations.Base58CheckRoundTrip : Prop :=
  (∀ x : List Byte, decodeCheck (encodeCheck x) = .ok x) ∧
  (∀ t p : List Byte, decodeCheck t = .ok p ↔ encodeCheck p = t)

/-- The law of §8 that R112 states: importing an exported key gives it back, in both forms, for every
predicate of the Curve Engine and every scalar it accepts. -/
def Obligations.WifRoundTrip : Prop :=
  (∀ (valid : List Byte → Bool) (k : List Byte) (c : Bool), k.length = 32 → valid k = true →
    wifImport valid (wifExport k c) = (k, ⟨true, c, .ok⟩)) ∧
  (∀ (valid : List Byte → Bool) (t : List Byte), (wifImport valid t).2.keyValid = true →
    (wifImport valid t).1.length = 32 ∧ valid (wifImport valid t).1 = true ∧
    wifExport (wifImport valid t).1 (wifImport valid t).2.keyCompressed = t)

/-- R109: the WIF text has no leading '1' and is 51 symbols, or 52 for a compressed key. -/
def Obligations.WifTextLength : Prop :=
  ∀ k : List Byte, k.length = 32 →
    wifExport k false = encodeCheck ([0x80] ++ k) ∧ wifExport k true = encodeCheck ([0x80] ++ k ++ [0x01]) ∧
    (wifExport k false).length = 51 ∧ (wifExport k true).length = 52 ∧
    (wifExport k false).head? ≠ some 0x31 ∧ (wifExport k true).head? ≠ some 0x31

/-- R6 and R22: after a command KEY_VALID is 1 exactly when it was an import that succeeded, of a scalar that
is not zero and that the Curve Engine accepted; that scalar then stands at DST. -/
def Obligations.ValidKeysAreNotZero : Prop :=
  ∀ (i : Instr) (s : State), ∃ t, exec i s = .next t ∧
    (t.resFlags.keyValid = true ↔
      t.status.errcode = .ok ∧
      ∃ k : List Byte, k.length = 32 ∧ (∃ x ∈ k, x ≠ 0) ∧ Config.curveAnswer k = true ∧
        ((i = .wifDec ∧ ∃ c, s.srcBytes = wifExport k c) ∨
          (i = .keyrecDec ∧ ∃ vb cb : Byte, vb ≠ 0 ∧ s.srcBytes = [vb, cb] ++ k)) ∧
        ∀ (j : Nat) (h : j < k.length), t.dmem.read (s.operands.dstAddr.toNat + j) = some k[j])

/-! ### The whole machine -/

/-- The invariant holds after power-on reset, for every legal choice of the parameters. -/
def Obligations.InvariantAtReset : Prop :=
  State.reset.Inv ∧ ∀ p : Params, p.wellFormed = true → (State.powerOn p).Inv

/-- The invariant is kept by every step, from every state that meets it: DMEM stays canonical and inside its
bounds, both contexts stay as R27 says, and the result registers stay as R21, R22 and R126 say. -/
def Obligations.StepKeepsInvariant : Prop :=
  ∀ s t : State, s.Inv → step s = .next t → t.Inv

/-- No run whose host makes only the accesses of R34's table ever faults or is refused, whatever the commands
and the data; and no step changes the parameters. -/
def Obligations.CleanHostNeverStops : Prop :=
  (∀ (k : Nat) (s : State), s.busClean = true →
    ∃ t, Sys2Proof.core.run k s = .next t ∧ t.busClean = true ∧ t.params = s.params) ∧
  (∀ (i : Instr) (s : State), ∃ t, exec i s = .next t)
end

