-- ==== Sys2Proof/Laws/Execute.lean ====
section
/-! SUPPORT. Everything the execution frame (R54) can do, said once. -/

namespace Sys2Proof.Machine

variable {s : State} {f : Form} {compute : List Byte → List Byte → Except ErrCode Result}

/-- The inputs `Compute` gets (R54). -/
def State.inputs (s : State) (f : Form) : List Byte × List Byte :=
  (if f.src then s.srcBytes else [], if f.aux then s.auxBytes else [])

/-- The four checks of R54 before `Compute`, passed. -/
structure Form.Ready (f : Form) (s : State) : Prop where
  phase : f.misused s = false
  length : f.limit.allows s.params s.operands.srcLen.toNat = true
  src : f.src = true → inDmem s.params s.operands.srcAddr s.operands.srcLen.toNat = true
  aux : f.aux = true → inDmem s.params s.operands.auxAddr s.operands.auxLen.toNat = true

theorem State.execute_misuse (h : f.misused s = true) : s.execute f compute = s.abort .misuse := by
  simp [State.execute, h]

theorem State.execute_length (hm : f.misused s = false)
    (h : f.limit.allows s.params s.operands.srcLen.toNat = false) :
    s.execute f compute = s.abort .length := by
  simp [State.execute, hm, h]

theorem State.execute_rangeIn (hm : f.misused s = false)
    (hl : f.limit.allows s.params s.operands.srcLen.toNat = true)
    (h : (f.src = true ∧ inDmem s.params s.operands.srcAddr s.operands.srcLen.toNat = false) ∨
      (f.aux = true ∧ inDmem s.params s.operands.auxAddr s.operands.auxLen.toNat = false)) :
    s.execute f compute = s.abort .rangeIn := by
  simp only [State.execute, hm, hl]
  grind

/-- Past the checks, the outcome is that of `Compute` and of the DST check. -/
theorem State.execute_ready (h : f.Ready s) :
    s.execute f compute =
      match compute (s.inputs f).1 (s.inputs f).2 with
      | .error code => s.abort code
      | .ok r =>
        if f.dst && !inDmem s.params s.operands.dstAddr r.out.length then s.abort .rangeOut
        else s.commit f.dst r := by
  obtain ⟨hm, hl, hs, ha⟩ := h
  have h1 : (f.src && !inDmem s.params s.operands.srcAddr s.operands.srcLen.toNat) = false := by
    cases hf : f.src <;> simp_all
  have h2 : (f.aux && !inDmem s.params s.operands.auxAddr s.operands.auxLen.toNat) = false := by
    cases hf : f.aux <;> simp_all
  simp only [State.execute, hm, hl, h1, h2, State.inputs]
  rfl

/-- What the frame can do: an abort, with the reason, or a commit, with every check passed. -/
theorem State.execute_cases (s : State) (f : Form) (compute : List Byte → List Byte → Except ErrCode Result) :
    (f.misused s = true ∧ s.execute f compute = s.abort .misuse) ∨
    (f.misused s = false ∧ f.limit.allows s.params s.operands.srcLen.toNat = false ∧
      s.execute f compute = s.abort .length) ∨
    (f.misused s = false ∧ f.limit.allows s.params s.operands.srcLen.toNat = true ∧
      ((f.src = true ∧ inDmem s.params s.operands.srcAddr s.operands.srcLen.toNat = false) ∨
        (f.aux = true ∧ inDmem s.params s.operands.auxAddr s.operands.auxLen.toNat = false)) ∧
      s.execute f compute = s.abort .rangeIn) ∨
    (f.Ready s ∧ ∃ code, compute (s.inputs f).1 (s.inputs f).2 = .error code ∧ s.execute f compute = s.abort code) ∨
    (f.Ready s ∧ ∃ r, compute (s.inputs f).1 (s.inputs f).2 = .ok r ∧ f.dst = true ∧
      inDmem s.params s.operands.dstAddr r.out.length = false ∧ s.execute f compute = s.abort .rangeOut) ∨
    (f.Ready s ∧ ∃ r, compute (s.inputs f).1 (s.inputs f).2 = .ok r ∧
      (f.dst = true → inDmem s.params s.operands.dstAddr r.out.length = true) ∧
      s.execute f compute = s.commit f.dst r) := by
  by_cases hm : f.misused s = true
  · exact .inl ⟨hm, State.execute_misuse hm⟩
  rw [Bool.not_eq_true] at hm
  by_cases hl : f.limit.allows s.params s.operands.srcLen.toNat = true
  swap
  · rw [Bool.not_eq_true] at hl
    exact .inr (.inl ⟨hm, hl, State.execute_length hm hl⟩)
  by_cases hr : (f.src = true ∧ inDmem s.params s.operands.srcAddr s.operands.srcLen.toNat = false) ∨
      (f.aux = true ∧ inDmem s.params s.operands.auxAddr s.operands.auxLen.toNat = false)
  · exact .inr (.inr (.inl ⟨hm, hl, hr, State.execute_rangeIn hm hl hr⟩))
  have ready : f.Ready s := by
    refine ⟨hm, hl, fun h => ?_, fun h => ?_⟩
    · by_contra hn; exact hr (.inl ⟨h, by simpa using hn⟩)
    · by_contra hn; exact hr (.inr ⟨h, by simpa using hn⟩)
  have hx := State.execute_ready (compute := compute) ready
  cases hc : compute (s.inputs f).1 (s.inputs f).2 with
  | error code => exact .inr (.inr (.inr (.inl ⟨ready, code, rfl, by rw [hx, hc]⟩)))
  | ok r =>
    rw [hc] at hx
    by_cases hd : f.dst = true ∧ inDmem s.params s.operands.dstAddr r.out.length = false
    · exact .inr (.inr (.inr (.inr (.inl ⟨ready, r, rfl, hd.1, hd.2, by simpa [hd.1, hd.2] using hx⟩))))
    · refine .inr (.inr (.inr (.inr (.inr ⟨ready, r, rfl, fun h => ?_, ?_⟩))))
      · by_contra hn; exact hd ⟨h, by simpa using hn⟩
      · rw [hx]
        have : (f.dst && !inDmem s.params s.operands.dstAddr r.out.length) = false := by
          cases hf : f.dst <;> simp_all
        simp [this]

end Sys2Proof.Machine
end

