-- ==== Sys2Proof/Laws/State.lean ====
section
/-! SUPPORT. One lemma per field of the state for each named update, so that no proof unfolds a record
update. -/

namespace Sys2Proof.Machine

/-! ### `abort` (R59) -/

@[simp] theorem State.abort_params (s : State) (code : ErrCode) : (s.abort code).params = s.params := rfl
@[simp] theorem State.abort_ctrl (s : State) (code : ErrCode) : (s.abort code).ctrl = s.ctrl := rfl
@[simp] theorem State.abort_status (s : State) (code : ErrCode) : (s.abort code).status = { done := true, err := true, errcode := code } := rfl
@[simp] theorem State.abort_operands (s : State) (code : ErrCode) : (s.abort code).operands = s.operands := rfl
@[simp] theorem State.abort_resLen (s : State) (code : ErrCode) : (s.abort code).resLen = 0 := rfl
@[simp] theorem State.abort_resFlags (s : State) (code : ErrCode) : (s.abort code).resFlags = ResFlags.zero := rfl
@[simp] theorem State.abort_sha (s : State) (code : ErrCode) : (s.abort code).sha = s.sha := rfl
@[simp] theorem State.abort_rmd (s : State) (code : ErrCode) : (s.abort code).rmd = s.rmd := rfl
@[simp] theorem State.abort_dmem (s : State) (code : ErrCode) : (s.abort code).dmem = s.dmem := rfl
@[simp] theorem State.abort_hostQueue (s : State) (code : ErrCode) : (s.abort code).hostQueue = s.hostQueue := rfl
@[simp] theorem State.abort_response (s : State) (code : ErrCode) : (s.abort code).response = s.response := rfl
@[simp] theorem State.abort_draws (s : State) (code : ErrCode) : (s.abort code).draws = s.draws := rfl

/-! ### `commit` (R58) -/

@[simp] theorem State.commit_params (s : State) (d : Bool) (r : Result) : (s.commit d r).params = s.params := rfl
@[simp] theorem State.commit_ctrl (s : State) (d : Bool) (r : Result) : (s.commit d r).ctrl = s.ctrl := rfl
@[simp] theorem State.commit_status (s : State) (d : Bool) (r : Result) : (s.commit d r).status = { s.status with errcode := .ok, done := true } := rfl
@[simp] theorem State.commit_operands (s : State) (d : Bool) (r : Result) : (s.commit d r).operands = s.operands := rfl
@[simp] theorem State.commit_resLen (s : State) (d : Bool) (r : Result) : (s.commit d r).resLen = BitVec.ofNat 32 r.out.length := rfl
@[simp] theorem State.commit_resFlags (s : State) (d : Bool) (r : Result) : (s.commit d r).resFlags = r.flags := rfl
@[simp] theorem State.commit_sha (s : State) (d : Bool) (r : Result) : (s.commit d r).sha = r.sha.getD s.sha := rfl
@[simp] theorem State.commit_rmd (s : State) (d : Bool) (r : Result) : (s.commit d r).rmd = r.rmd.getD s.rmd := rfl
@[simp] theorem State.commit_dmem (s : State) (d : Bool) (r : Result) : (s.commit d r).dmem = if d then s.dmem.writeBytes s.operands.dstAddr.toNat r.out else s.dmem := rfl
@[simp] theorem State.commit_hostQueue (s : State) (d : Bool) (r : Result) : (s.commit d r).hostQueue = s.hostQueue := rfl
@[simp] theorem State.commit_response (s : State) (d : Bool) (r : Result) : (s.commit d r).response = s.response := rfl
@[simp] theorem State.commit_draws (s : State) (d : Bool) (r : Result) : (s.commit d r).draws = s.draws := rfl

/-! ### `powerOn` (R143) -/

@[simp] theorem State.powerOn_params (p : Params) : (State.powerOn p).params = p := rfl
@[simp] theorem State.powerOn_ctrl (p : Params) : (State.powerOn p).ctrl = { ieDone := false, ieErr := false } := rfl
@[simp] theorem State.powerOn_status (p : Params) : (State.powerOn p).status = { done := false, err := false, errcode := .ok } := rfl
@[simp] theorem State.powerOn_operands (p : Params) : (State.powerOn p).operands = { srcAddr := 0, srcLen := 0, dstAddr := 0, auxAddr := 0, auxLen := 0 } := rfl
@[simp] theorem State.powerOn_resLen (p : Params) : (State.powerOn p).resLen = 0 := rfl
@[simp] theorem State.powerOn_resFlags (p : Params) : (State.powerOn p).resFlags = ResFlags.zero := rfl
@[simp] theorem State.powerOn_sha (p : Params) : (State.powerOn p).sha = HashCtx.init iv256 := rfl
@[simp] theorem State.powerOn_rmd (p : Params) : (State.powerOn p).rmd = HashCtx.init iv160 := rfl
@[simp] theorem State.powerOn_dmem (p : Params) : (State.powerOn p).dmem = [] := rfl
@[simp] theorem State.powerOn_hostQueue (p : Params) : (State.powerOn p).hostQueue = [] := rfl
@[simp] theorem State.powerOn_response (p : Params) : (State.powerOn p).response = .none := rfl
@[simp] theorem State.powerOn_draws (p : Params) : (State.powerOn p).draws = 0 := rfl

/-! ### `softReset` (R142) -/

@[simp] theorem State.softReset_params (s : State) : (s.softReset).params = s.params := rfl
@[simp] theorem State.softReset_ctrl (s : State) : (s.softReset).ctrl = (State.powerOn s.params).ctrl := rfl
@[simp] theorem State.softReset_status (s : State) : (s.softReset).status = (State.powerOn s.params).status := rfl
@[simp] theorem State.softReset_operands (s : State) : (s.softReset).operands = (State.powerOn s.params).operands := rfl
@[simp] theorem State.softReset_resLen (s : State) : (s.softReset).resLen = (State.powerOn s.params).resLen := rfl
@[simp] theorem State.softReset_resFlags (s : State) : (s.softReset).resFlags = (State.powerOn s.params).resFlags := rfl
@[simp] theorem State.softReset_sha (s : State) : (s.softReset).sha = (State.powerOn s.params).sha := rfl
@[simp] theorem State.softReset_rmd (s : State) : (s.softReset).rmd = (State.powerOn s.params).rmd := rfl
@[simp] theorem State.softReset_dmem (s : State) : (s.softReset).dmem = s.dmem := rfl
@[simp] theorem State.softReset_hostQueue (s : State) : (s.softReset).hostQueue = s.hostQueue := rfl
@[simp] theorem State.softReset_response (s : State) : (s.softReset).response = s.response := rfl
@[simp] theorem State.softReset_draws (s : State) : (s.softReset).draws = s.draws := rfl

/-! ### `respond` -/

@[simp] theorem State.respond_params (s : State) (r : Response) : (s.respond r).params = s.params := rfl
@[simp] theorem State.respond_ctrl (s : State) (r : Response) : (s.respond r).ctrl = s.ctrl := rfl
@[simp] theorem State.respond_status (s : State) (r : Response) : (s.respond r).status = s.status := rfl
@[simp] theorem State.respond_operands (s : State) (r : Response) : (s.respond r).operands = s.operands := rfl
@[simp] theorem State.respond_resLen (s : State) (r : Response) : (s.respond r).resLen = s.resLen := rfl
@[simp] theorem State.respond_resFlags (s : State) (r : Response) : (s.respond r).resFlags = s.resFlags := rfl
@[simp] theorem State.respond_sha (s : State) (r : Response) : (s.respond r).sha = s.sha := rfl
@[simp] theorem State.respond_rmd (s : State) (r : Response) : (s.respond r).rmd = s.rmd := rfl
@[simp] theorem State.respond_dmem (s : State) (r : Response) : (s.respond r).dmem = s.dmem := rfl
@[simp] theorem State.respond_hostQueue (s : State) (r : Response) : (s.respond r).hostQueue = s.hostQueue := rfl
@[simp] theorem State.respond_response (s : State) (r : Response) : (s.respond r).response = r := rfl
@[simp] theorem State.respond_draws (s : State) (r : Response) : (s.respond r).draws = s.draws + 1 := rfl

/-! ### `writeStatus` (R18) -/

@[simp] theorem State.writeStatus_params (s : State) (v : Word) : (s.writeStatus v).params = s.params := rfl
@[simp] theorem State.writeStatus_ctrl (s : State) (v : Word) : (s.writeStatus v).ctrl = s.ctrl := rfl
@[simp] theorem State.writeStatus_status (s : State) (v : Word) : (s.writeStatus v).status = { s.status with done := s.status.done && !v.getLsbD 0, err := s.status.err && !v.getLsbD 1 } := rfl
@[simp] theorem State.writeStatus_operands (s : State) (v : Word) : (s.writeStatus v).operands = s.operands := rfl
@[simp] theorem State.writeStatus_resLen (s : State) (v : Word) : (s.writeStatus v).resLen = s.resLen := rfl
@[simp] theorem State.writeStatus_resFlags (s : State) (v : Word) : (s.writeStatus v).resFlags = s.resFlags := rfl
@[simp] theorem State.writeStatus_sha (s : State) (v : Word) : (s.writeStatus v).sha = s.sha := rfl
@[simp] theorem State.writeStatus_rmd (s : State) (v : Word) : (s.writeStatus v).rmd = s.rmd := rfl
@[simp] theorem State.writeStatus_dmem (s : State) (v : Word) : (s.writeStatus v).dmem = s.dmem := rfl
@[simp] theorem State.writeStatus_hostQueue (s : State) (v : Word) : (s.writeStatus v).hostQueue = s.hostQueue := rfl
@[simp] theorem State.writeStatus_response (s : State) (v : Word) : (s.writeStatus v).response = s.response := rfl
@[simp] theorem State.writeStatus_draws (s : State) (v : Word) : (s.writeStatus v).draws = s.draws := rfl

/-! ### `writeCtrl` (R17): what a CTRL write keeps, whether it resets or not -/

@[simp] theorem State.writeCtrl_params (s : State) (v : Word) : (s.writeCtrl v).params = s.params := by unfold State.writeCtrl; split <;> rfl
@[simp] theorem State.writeCtrl_dmem (s : State) (v : Word) : (s.writeCtrl v).dmem = s.dmem := by unfold State.writeCtrl; split <;> rfl
@[simp] theorem State.writeCtrl_hostQueue (s : State) (v : Word) : (s.writeCtrl v).hostQueue = s.hostQueue := by unfold State.writeCtrl; split <;> rfl
@[simp] theorem State.writeCtrl_response (s : State) (v : Word) : (s.writeCtrl v).response = s.response := by unfold State.writeCtrl; split <;> rfl
@[simp] theorem State.writeCtrl_draws (s : State) (v : Word) : (s.writeCtrl v).draws = s.draws := by unfold State.writeCtrl; split <;> rfl

/-! ### `writeRegister` (R16–R20): what no register write changes -/

@[simp] theorem State.writeRegister_params (s : State) (r : Reg) (v : Word) : (s.writeRegister r v).params = s.params := by cases r <;> simp [State.writeRegister]
@[simp] theorem State.writeRegister_dmem (s : State) (r : Reg) (v : Word) : (s.writeRegister r v).dmem = s.dmem := by cases r <;> simp [State.writeRegister]
@[simp] theorem State.writeRegister_hostQueue (s : State) (r : Reg) (v : Word) : (s.writeRegister r v).hostQueue = s.hostQueue := by cases r <;> simp [State.writeRegister]
@[simp] theorem State.writeRegister_response (s : State) (r : Reg) (v : Word) : (s.writeRegister r v).response = s.response := by cases r <;> simp [State.writeRegister]
@[simp] theorem State.writeRegister_draws (s : State) (r : Reg) (v : Word) : (s.writeRegister r v).draws = s.draws := by cases r <;> simp [State.writeRegister]

/-! ### `writeWindowByte` and `writeWindowWord` (R33) -/

@[simp] theorem State.writeWindowByte_params (s : State) (a : Nat) (v : Byte) : (s.writeWindowByte a v).params = s.params := by unfold State.writeWindowByte; split <;> rfl
@[simp] theorem State.writeWindowByte_ctrl (s : State) (a : Nat) (v : Byte) : (s.writeWindowByte a v).ctrl = s.ctrl := by unfold State.writeWindowByte; split <;> rfl
@[simp] theorem State.writeWindowByte_status (s : State) (a : Nat) (v : Byte) : (s.writeWindowByte a v).status = s.status := by unfold State.writeWindowByte; split <;> rfl
@[simp] theorem State.writeWindowByte_operands (s : State) (a : Nat) (v : Byte) : (s.writeWindowByte a v).operands = s.operands := by unfold State.writeWindowByte; split <;> rfl
@[simp] theorem State.writeWindowByte_resLen (s : State) (a : Nat) (v : Byte) : (s.writeWindowByte a v).resLen = s.resLen := by unfold State.writeWindowByte; split <;> rfl
@[simp] theorem State.writeWindowByte_resFlags (s : State) (a : Nat) (v : Byte) : (s.writeWindowByte a v).resFlags = s.resFlags := by unfold State.writeWindowByte; split <;> rfl
@[simp] theorem State.writeWindowByte_sha (s : State) (a : Nat) (v : Byte) : (s.writeWindowByte a v).sha = s.sha := by unfold State.writeWindowByte; split <;> rfl
@[simp] theorem State.writeWindowByte_rmd (s : State) (a : Nat) (v : Byte) : (s.writeWindowByte a v).rmd = s.rmd := by unfold State.writeWindowByte; split <;> rfl
@[simp] theorem State.writeWindowByte_dmem (s : State) (a : Nat) (v : Byte) : (s.writeWindowByte a v).dmem = if a < s.params.dmemSize then s.dmem.write a v else s.dmem := by unfold State.writeWindowByte; split <;> rfl
@[simp] theorem State.writeWindowByte_hostQueue (s : State) (a : Nat) (v : Byte) : (s.writeWindowByte a v).hostQueue = s.hostQueue := by unfold State.writeWindowByte; split <;> rfl
@[simp] theorem State.writeWindowByte_response (s : State) (a : Nat) (v : Byte) : (s.writeWindowByte a v).response = s.response := by unfold State.writeWindowByte; split <;> rfl
@[simp] theorem State.writeWindowByte_draws (s : State) (a : Nat) (v : Byte) : (s.writeWindowByte a v).draws = s.draws := by unfold State.writeWindowByte; split <;> rfl

@[simp] theorem State.writeWindowWord_params (s : State) (a : Nat) (v : Word) : (s.writeWindowWord a v).params = s.params := by simp [State.writeWindowWord]
@[simp] theorem State.writeWindowWord_ctrl (s : State) (a : Nat) (v : Word) : (s.writeWindowWord a v).ctrl = s.ctrl := by simp [State.writeWindowWord]
@[simp] theorem State.writeWindowWord_status (s : State) (a : Nat) (v : Word) : (s.writeWindowWord a v).status = s.status := by simp [State.writeWindowWord]
@[simp] theorem State.writeWindowWord_operands (s : State) (a : Nat) (v : Word) : (s.writeWindowWord a v).operands = s.operands := by simp [State.writeWindowWord]
@[simp] theorem State.writeWindowWord_resLen (s : State) (a : Nat) (v : Word) : (s.writeWindowWord a v).resLen = s.resLen := by simp [State.writeWindowWord]
@[simp] theorem State.writeWindowWord_resFlags (s : State) (a : Nat) (v : Word) : (s.writeWindowWord a v).resFlags = s.resFlags := by simp [State.writeWindowWord]
@[simp] theorem State.writeWindowWord_sha (s : State) (a : Nat) (v : Word) : (s.writeWindowWord a v).sha = s.sha := by simp [State.writeWindowWord]
@[simp] theorem State.writeWindowWord_rmd (s : State) (a : Nat) (v : Word) : (s.writeWindowWord a v).rmd = s.rmd := by simp [State.writeWindowWord]
@[simp] theorem State.writeWindowWord_hostQueue (s : State) (a : Nat) (v : Word) : (s.writeWindowWord a v).hostQueue = s.hostQueue := by simp [State.writeWindowWord]
@[simp] theorem State.writeWindowWord_response (s : State) (a : Nat) (v : Word) : (s.writeWindowWord a v).response = s.response := by simp [State.writeWindowWord]
@[simp] theorem State.writeWindowWord_draws (s : State) (a : Nat) (v : Word) : (s.writeWindowWord a v).draws = s.draws := by simp [State.writeWindowWord]

end Sys2Proof.Machine
end

