-- ==== Sys2Proof/Laws/Access.lean ====
section
/-! SUPPORT. What a command and a step can do, said once. -/

namespace Sys2Proof.Machine

/-- `Compute` of each command (R54), as its meaning gives it to the frame. -/
def computeOf (i : Instr) (s : State) : List Byte → List Byte → Except ErrCode Result :=
  match i with
  | .nop => fun _ _ => .ok {}
  | .sha256Init => fun _ _ => .ok { sha := some init256 }
  | .sha256Update => fun m _ => .ok { sha := some (absorb256 s.sha m) }
  | .sha256Final => fun _ _ => .ok { out := digest256 (finish256 s.sha), sha := some (finish256 s.sha) }
  | .sha256 => fun m _ => .ok { out := sha256 m }
  | .sha256d => fun m _ => .ok { out := sha256d m }
  | .hmacSha256 => fun data key => .ok { out := hmac256 key data }
  | .rmd160Init => fun _ _ => .ok { rmd := some init160 }
  | .rmd160Update => fun m _ => .ok { rmd := some (absorb160 s.rmd m) }
  | .rmd160Final => fun _ _ => .ok { out := digest160 (finish160 s.rmd), rmd := some (finish160 s.rmd) }
  | .rmd160 => fun m _ => .ok { out := rmd160 m }
  | .hash160 => fun m _ => .ok { out := hash160 m }
  | .b58Enc => fun b _ => .ok { out := base58Encode b }
  | .b58Dec => fun t _ => textResult (base58Decode t)
  | .b58Checksum => fun b _ => .ok { out := base58Checksum b }
  | .b58chkEnc => fun p _ => .ok { out := encodeCheck p }
  | .b58chkDec => fun t _ => textResult (decodeCheck t)
  | .wifEnc c => fun k _ => .ok { out := wifExport k c }
  | .wifDec => fun t _ => .ok { out := (wifImport validateScalar t).1, flags := (wifImport validateScalar t).2 }
  | .derEnc l => fun rs _ => .ok { out := derEncode l (rs.take 32) ((rs.drop 32).take 32) }
  | .derDec => fun b _ => derResult (derParse b)
  | .keyrecEnc v c => fun k _ => .ok { out := keyRecord v c k }
  | .keyrecDec => fun r _ =>
      .ok { out := (keyRecordImport validateScalar r).1, flags := (keyRecordImport validateScalar r).2 }

/-- Every command is one run of the execution frame; none faults and none is refused. -/
theorem exec_eq (i : Instr) (s : State) :
    exec i s = .next (s.execute (operandForm i) (computeOf i s)) := by
  cases i <;> rfl

/-- The same as an equation about the next state. -/
theorem exec_next {i : Instr} {s t : State} (h : exec i s = .next t) :
    t = s.execute (operandForm i) (computeOf i s) := by
  rw [exec_eq] at h
  exact (Host.Outcome.next.inj h).symm

/-- What a word written to CMD does: its command, or ILLEGAL_CMD. It always has a next state. -/
theorem runCommand_cases (v : Word) (s : State) :
    (∃ i, decode v = .ok i ∧ runCommand v s = exec i s) ∨
    (∃ e, decode v = .error e ∧ runCommand v s = .next (s.abort .illegalCmd)) := by
  unfold runCommand
  cases h : decode v with
  | ok i => exact .inl ⟨i, rfl, rfl⟩
  | error e => exact .inr ⟨e, rfl, rfl⟩

/-- The effect of a performed access on the engine, before its response: nothing, a DMEM or register write,
a command, or an illegal command word. -/
inductive AccessEffect (s : State) : State → Prop where
  | none : AccessEffect s s
  | dmemByte (a : Nat) (v : Byte) : AccessEffect s (s.writeWindowByte a v)
  | dmemWord (a : Nat) (v : Word) : AccessEffect s (s.writeWindowWord a v)
  | register (r : Reg) (v : Word) : AccessEffect s (s.writeRegister r v)
  | command (i : Instr) : AccessEffect s (s.execute (operandForm i) (computeOf i s))
  | illegal : AccessEffect s (s.abort .illegalCmd)

/-- A performed 32-bit write always has a next state, and does one of the effects above. -/
theorem writeWord_effect (off : Offset) (v : Word) (s : State) :
    ∃ u, writeWord off v s = .next u ∧ AccessEffect s u := by
  unfold writeWord
  split
  · exact ⟨_, rfl, .dmemWord _ _⟩
  · split
    · rcases runCommand_cases v s with ⟨i, _, h⟩ | ⟨e, _, h⟩
      · exact ⟨_, by rw [h, exec_eq], .command i⟩
      · exact ⟨_, h, .illegal⟩
    · exact ⟨_, rfl, .register _ _⟩
    · exact ⟨_, rfl, .none⟩

/-- An access the bus performs always has a next state: one of the effects above, and its response. -/
theorem performAccess_effect {a : HostAccess} (h : busFault a = none) (s : State) :
    ∃ u r, performAccess a s = .next (u.respond r) ∧ AccessEffect s u := by
  simp only [performAccess, h]
  cases a with
  | read8 off => exact ⟨_, _, rfl, .none⟩
  | read32 off => exact ⟨_, _, rfl, .none⟩
  | write8 off v => exact ⟨_, _, rfl, .dmemByte _ _⟩
  | write32 off v =>
    obtain ⟨u, hu, he⟩ := writeWord_effect off v s
    exact ⟨u, .ack, by simp only [performed, hu, answered], he⟩
  | read16 off => simp [busFault] at h
  | write16 off v => simp [busFault] at h
  | otherWidth off => simp [busFault] at h

/-- What a step can do: stay idle, or carry through the oldest waiting access. -/
theorem step_cases {s t : State} (h : step s = .next t) :
    (s.hostQueue = [] ∧ t = s) ∨
    ∃ a rest u r, s.hostQueue = a :: rest ∧ busFault a = none ∧
      AccessEffect { s with hostQueue := rest } u ∧ t = u.respond r := by
  unfold step at h
  split at h
  · rename_i hq; exact .inl ⟨hq, (Host.Outcome.next.inj h).symm⟩
  · rename_i a rest hq
    cases hf : busFault a with
    | some f => simp [performAccess, hf] at h
    | none =>
      obtain ⟨u, r, hu, he⟩ := performAccess_effect hf { s with hostQueue := rest }
      rw [hu] at h
      exact .inr ⟨a, rest, u, r, hq, hf, he, (Host.Outcome.next.inj h).symm⟩

/-- A step over an access with a bus error is that fault. -/
theorem step_fault {s : State} {a : HostAccess} {rest : List HostAccess} {f : Fault}
    (hq : s.hostQueue = a :: rest) (hf : busFault a = some f) : step s = .fault f := by
  simp [step, hq, performAccess, hf]

end Sys2Proof.Machine
end

