-- ==== Sys2Proof/Laws/Bits.lean ====
section
/-! SUPPORT. Digit strings and numbers (R9, R96): the loop's digits are the shortest, most significant
first, and `min_be` and `int_be` are inverse. -/

namespace Sys2Proof.Machine

/-- The loop puts the digits in front of what it has, given fuel for the number. -/
theorem digitsLoop_eq {base : Nat} (hb : 1 < base) (fuel n : Nat) (h : n ≤ fuel) (ds : List Nat) :
    digitsLoop base fuel n ds = (Nat.digits base n).reverse ++ ds := by
  induction fuel generalizing n ds with
  | zero => obtain rfl : n = 0 := by omega
            simp [digitsLoop]
  | succ fuel ih =>
    unfold digitsLoop
    split
    · subst_vars; simp
    · have hlt : n / base < n := Nat.div_lt_self (by omega) hb
      rw [ih _ (by omega), Nat.digits_def' hb (by omega : 0 < n)]
      simp

/-- The digits of R96 are Mathlib's, most significant first. -/
theorem digitsOf_eq {base : Nat} (hb : 1 < base) (n : Nat) :
    digitsOf base n = (Nat.digits base n).reverse := by
  rw [digitsOf, digitsLoop_eq hb n n le_rfl, List.append_nil]

/-- `int_be` of a byte string is its value in base 256. -/
theorem intBe_eq (b : List Byte) : intBe b = Nat.ofDigits 256 (b.map BitVec.toNat).reverse := by
  have key : ∀ (n : Nat), b.foldl (fun n x => n * 256 + x.toNat) n =
      n * 256 ^ b.length + Nat.ofDigits 256 (b.map BitVec.toNat).reverse := by
    induction b with
    | nil => intro n; simp
    | cons x xs ih =>
      intro n
      rw [List.foldl_cons, ih]
      simp only [List.map_cons, List.reverse_cons, Nat.ofDigits_append, List.length_reverse, List.length_map,
        Nat.ofDigits_singleton, List.length_cons, pow_succ]
      ring
  simpa [intBe] using key 0

@[simp] theorem intBe_nil : intBe [] = 0 := rfl

@[simp] theorem minBe_zero : minBe 0 = [] := rfl

theorem digitsOf_lt {base n d : Nat} (hb : 1 < base) (h : d ∈ digitsOf base n) : d < base := by
  rw [digitsOf_eq hb, List.mem_reverse] at h
  exact Nat.digits_lt_base hb h

/-- The bytes of `min_be` are the base-256 digits. -/
theorem map_toNat_minBe (n : Nat) : (minBe n).map BitVec.toNat = digitsOf 256 n := by
  rw [minBe, List.map_map]
  conv_rhs => rw [← List.map_id (digitsOf 256 n)]
  exact List.map_congr_left fun d hd => by
    have := digitsOf_lt (by decide : 1 < 256) hd
    simp [BitVec.toNat_ofNat]
    omega

/-- `int_be(min_be(n)) = n` (R9). -/
@[simp] theorem intBe_minBe (n : Nat) : intBe (minBe n) = n := by
  rw [intBe_eq, map_toNat_minBe, digitsOf_eq (by decide), List.reverse_reverse, Nat.ofDigits_digits]

/-- `min_be(n)[0] ≠ 0` (R9). -/
theorem minBe_head (n : Nat) (h : n ≠ 0) : (minBe n).head? ≠ some 0 := by
  intro h0
  have hh : ((minBe n).map BitVec.toNat).head? = some 0 := by simp [List.head?_map, h0]
  rw [map_toNat_minBe, digitsOf_eq (by decide), List.head?_reverse] at hh
  have hne : Nat.digits 256 n ≠ [] := Nat.digits_ne_nil_iff_ne_zero.mpr h
  rw [List.getLast?_eq_getLast_of_ne_nil hne] at hh
  exact Nat.getLast_digit_ne_zero 256 h (Option.some.inj hh)

/-- A byte string that does not start with zero is the `min_be` of its number. -/
theorem minBe_intBe {b : List Byte} (h : b.head? ≠ some 0) : minBe (intBe b) = b := by
  have inj : Function.Injective (List.map (BitVec.toNat (w := 8))) :=
    List.map_injective_iff.mpr fun x y => BitVec.eq_of_toNat_eq
  apply inj
  rw [map_toNat_minBe, digitsOf_eq (by decide), intBe_eq, Nat.digits_ofDigits 256 (by decide), List.reverse_reverse]
  · intro d hd
    rw [List.mem_reverse, List.mem_map] at hd
    obtain ⟨x, _, rfl⟩ := hd
    exact x.isLt
  · intro hne hl
    rw [List.getLast_reverse] at hl
    cases b with
    | nil => simp at hne
    | cons x xs =>
      apply h
      simp only [List.map_cons, List.head_cons] at hl
      simp [BitVec.eq_of_toNat_eq (x := x) (y := 0#8) hl]

end Sys2Proof.Machine
end

