-- ==== Sys2Proof/Laws/PerInstr.lean ====
section
/-! SUPPORT. One lemma per command: its word is the one the opcode table gives it. -/

namespace Sys2Proof.Laws.EncodedWord

/-- The OP byte of R48 stands in bits 7:0, RSV is zero, and MOD stays inside MODMASK (R45, R49). -/
def Statement (i : Instr) : Prop :=
  opField (encode i) = encodeOp i ∧ modField (encode i) = encodeMod i ∧ rsvField (encode i) = 0 ∧
    legalWord (encode i) = true ∧ (opcodeRows.filter (fun r => encode i &&& r.mask == r.matchBits)).length = 1

theorem nop : Statement .nop := by unfold Statement; decide
theorem sha256Init : Statement .sha256Init := by unfold Statement; decide
theorem sha256Update : Statement .sha256Update := by unfold Statement; decide
theorem sha256Final : Statement .sha256Final := by unfold Statement; decide
theorem sha256 : Statement .sha256 := by unfold Statement; decide
theorem sha256d : Statement .sha256d := by unfold Statement; decide
theorem hmacSha256 : Statement .hmacSha256 := by unfold Statement; decide
theorem rmd160Init : Statement .rmd160Init := by unfold Statement; decide
theorem rmd160Update : Statement .rmd160Update := by unfold Statement; decide
theorem rmd160Final : Statement .rmd160Final := by unfold Statement; decide
theorem rmd160 : Statement .rmd160 := by unfold Statement; decide
theorem hash160 : Statement .hash160 := by unfold Statement; decide
theorem b58Enc : Statement .b58Enc := by unfold Statement; decide
theorem b58Dec : Statement .b58Dec := by unfold Statement; decide
theorem b58Checksum : Statement .b58Checksum := by unfold Statement; decide
theorem b58chkEnc : Statement .b58chkEnc := by unfold Statement; decide
theorem b58chkDec : Statement .b58chkDec := by unfold Statement; decide
theorem wifEnc (b : Bool) : Statement (.wifEnc b) := by cases b <;> (unfold Statement; decide)
theorem wifDec : Statement .wifDec := by unfold Statement; decide
theorem derEnc (b : Bool) : Statement (.derEnc b) := by cases b <;> (unfold Statement; decide)
theorem derDec : Statement .derDec := by unfold Statement; decide
theorem keyrecEnc (v c : Bool) : Statement (.keyrecEnc v c) := by cases v <;> cases c <;> (unfold Statement; decide)
theorem keyrecDec : Statement .keyrecDec := by unfold Statement; decide

end Sys2Proof.Laws.EncodedWord
end

