-- ==== Sys2Proof/Laws/Streaming.lean ====
section
/-! SUPPORT. The small lemmas of the streaming primitives (R69, R70) and of the digests' lengths. -/

namespace Sys2Proof.Machine

variable {α : Type} (f : α → List Byte → α)

@[simp] theorem HashCtx.absorbByte_bitlen (c : HashCtx α) (b : Byte) :
    (c.absorbByte f b).bitlen = c.bitlen := by
  unfold HashCtx.absorbByte; dsimp only; split <;> rfl

@[simp] theorem HashCtx.absorbByte_phase (c : HashCtx α) (b : Byte) :
    (c.absorbByte f b).phase = c.phase := by
  unfold HashCtx.absorbByte; dsimp only; split <;> rfl

/-- One byte more in the buffer, modulo the block. -/
theorem HashCtx.absorbByte_buf_length {c : HashCtx α} (h : c.buf.length < 64) (b : Byte) :
    (c.absorbByte f b).buf.length = (c.buf.length + 1) % 64 := by
  unfold HashCtx.absorbByte
  dsimp only
  split <;> simp_all; omega

theorem HashCtx.foldl_absorbByte_bitlen (m : List Byte) (c : HashCtx α) :
    (m.foldl (HashCtx.absorbByte f) c).bitlen = c.bitlen := by
  induction m generalizing c with
  | nil => rfl
  | cons b m ih => rw [List.foldl_cons, ih, HashCtx.absorbByte_bitlen]

theorem HashCtx.foldl_absorbByte_phase (m : List Byte) (c : HashCtx α) :
    (m.foldl (HashCtx.absorbByte f) c).phase = c.phase := by
  induction m generalizing c with
  | nil => rfl
  | cons b m ih => rw [List.foldl_cons, ih, HashCtx.absorbByte_phase]

theorem HashCtx.foldl_absorbByte_buf_length (m : List Byte) {c : HashCtx α} (h : c.buf.length < 64) :
    (m.foldl (HashCtx.absorbByte f) c).buf.length = (c.buf.length + m.length) % 64 := by
  induction m generalizing c with
  | nil => simp; omega
  | cons b m ih =>
    have hb := HashCtx.absorbByte_buf_length f h b
    rw [List.foldl_cons, ih (by omega), hb, List.length_cons]
    omega

/-- The counter adds eight bits a byte, modulo 2^64 (R69). -/
@[simp] theorem HashCtx.absorb_bitlen (c : HashCtx α) (m : List Byte) :
    (c.absorb f m).bitlen = c.bitlen + BitVec.ofNat 64 (8 * m.length) :=
  HashCtx.foldl_absorbByte_bitlen f m _

@[simp] theorem HashCtx.absorb_phase (c : HashCtx α) (m : List Byte) : (c.absorb f m).phase = c.phase :=
  HashCtx.foldl_absorbByte_phase f m _

/-- After Absorb fewer than 64 bytes are buffered (R69). -/
theorem HashCtx.absorb_buf_length {c : HashCtx α} (h : c.buf.length < 64) (m : List Byte) :
    (c.absorb f m).buf.length = (c.buf.length + m.length) % 64 :=
  HashCtx.foldl_absorbByte_buf_length f m h

@[simp] theorem HashCtx.finish_buf (l : BitVec 64 → List Byte) (c : HashCtx α) : (c.finish f l).buf = [] := rfl

@[simp] theorem HashCtx.finish_phase (l : BitVec 64 → List Byte) (c : HashCtx α) :
    (c.finish f l).phase = .finalized := rfl

@[simp] theorem HashCtx.finish_bitlen (l : BitVec 64 → List Byte) (c : HashCtx α) :
    (c.finish f l).bitlen = c.bitlen := rfl

@[simp] theorem be32_length (w : Word) : (be32 w).length = 4 := rfl
@[simp] theorem le32_length (w : Word) : (le32 w).length = 4 := rfl
@[simp] theorem be64_length (v : BitVec 64) : (be64 v).length = 8 := rfl
@[simp] theorem le64_length (v : BitVec 64) : (le64 v).length = 8 := rfl

@[simp] theorem digest256_length (c : HashCtx Words8) : (digest256 c).length = 32 := by
  simp [digest256, Words8.toList]

@[simp] theorem digest160_length (c : HashCtx Words5) : (digest160 c).length = 20 := by
  simp [digest160, Words5.toList]

@[simp] theorem sha256_length (m : List Byte) : (sha256 m).length = 32 := digest256_length _

@[simp] theorem rmd160_length (m : List Byte) : (rmd160 m).length = 20 := digest160_length _

end Sys2Proof.Machine
end

