-- ==== Sys2Proof/Tests/Slice0.lean ====
section
/-! SUPPORT. Tests: the well-formedness checks refuse, words written out bit by bit decode, the vectors of
spec/95_test_vectors.md come out, and every statement with hypotheses has states that meet them. -/

namespace Sys2Proof.Tests

open Sys2Proof.Machine Sys2Proof.Claims

-- one theorem at a time: each kernel evaluation then has the memory to itself
set_option Elab.async false

/-- A fresh engine with `src` written at 0, `key` at 0x800, and DST at 0x400. -/
def withKey (src key : List Byte) : State :=
  { State.reset with
    operands := ⟨0, BitVec.ofNat 32 src.length, 0x400, 0x800, BitVec.ofNat 32 key.length⟩
    dmem := Memory.writeBytes (Memory.writeBytes [] 0 src) 0x800 key }

/-- A fresh engine with `src` written at 0 and DST at 0x400. -/
def withSrc (src : List Byte) : State := withKey src []

/-- A fresh engine with the operand registers SRC_ADDR, SRC_LEN, DST_ADDR, AUX_ADDR, AUX_LEN. -/
def withRegs (sa sl da aa al : Word) : State := { State.reset with operands := ⟨sa, sl, da, aa, al⟩ }

/-- A fresh engine with one host program waiting. -/
def withHost (q : List HostAccess) : State := { State.reset with hostQueue := q }

/-- Both streaming contexts FINALIZED. -/
def finalized (s : State) : State :=
  { s with sha := { init256 with phase := .finalized }, rmd := { init160 with phase := .finalized } }

/-- What a command wrote, its flags and its error code. -/
def outcome : Host.Outcome State Fault Refusal → Option (List (Option Byte) × ResFlags × ErrCode)
  | .next t => some ((List.range t.resLen.toNat).map (fun k => t.dmem.read (t.operands.dstAddr.toNat + k)),
      t.resFlags, t.status.errcode)
  | .fault _ => none
  | .refused _ => none

/-- A success that wrote `out`. -/
def wrote (out : List Byte) (f : ResFlags := ResFlags.zero) : Option (List (Option Byte) × ResFlags × ErrCode) :=
  some (out.map some, f, .ok)

/-- A failure with `c`. -/
def failedWith (c : ErrCode) : Option (List (Option Byte) × ResFlags × ErrCode) := some ([], ResFlags.zero, c)

/-- A register of the next state. -/
def reads (r : Reg) : Host.Outcome State Fault Refusal → Option Word
  | .next t => some (t.readRegister r)
  | .fault _ => none
  | .refused _ => none

/-! ### Well-formedness: an ill-formed term for each check -/

-- R49: RSV ≠ 0 (ENC-8), an unassigned OP (ENC-2, ENC-3), a MOD bit outside MODMASK (ENC-4, ENC-6)
theorem test_wf_refuses_rsv : legalWord 0x00010000 = false := by decide
theorem test_wf_refuses_rsv_top : legalWord 0x80000000 = false := by decide
theorem test_wf_refuses_op : legalWord 0x00000007 = false := by decide
theorem test_wf_refuses_op_gaps :
    legalWord 0x00000010 = false ∧ legalWord 0x00000026 = false ∧ legalWord 0x00000037 = false := by decide
theorem test_wf_refuses_mod : legalWord 0x00000100 = false := by decide
theorem test_wf_refuses_mod_bit1 : legalWord 0x00000231 = false ∧ legalWord 0x00000233 = false := by decide
theorem test_wf_refuses_mod_bit2 : legalWord 0x00000435 = false := by decide
-- R5: each range of the parameters
theorem test_wf_refuses_dmem_multiple : Params.wellFormed ⟨258, 64, 0⟩ = false := by decide
theorem test_wf_refuses_dmem_small : Params.wellFormed ⟨252, 64, 0⟩ = false := by decide
theorem test_wf_refuses_dmem_large : Params.wellFormed ⟨4100, 64, 0⟩ = false := by decide
theorem test_wf_refuses_b58_small : Params.wellFormed ⟨256, 63, 0⟩ = false := by decide
theorem test_wf_refuses_b58_large : Params.wellFormed ⟨256, 257, 0⟩ = false := by decide
theorem test_wf_refuses_base : Params.wellFormed ⟨256, 64, 4096⟩ = false := by decide
theorem test_wf_accepts_bounds :
    Params.wellFormed ⟨256, 64, 8192⟩ = true ∧ Params.wellFormed ⟨4096, 4096, 0⟩ = true := by decide

/-! ### Words written out from R45, R47 and R48: RSV ++ MOD ++ OP -/

/-- A command word with RSV zero. -/
def word (md op : Byte) : Word := (0b0000000000000000#16 ++ md ++ op : BitVec 32)

theorem test_decode_nop : decode (word 0b00000000 0b00000000) = .ok .nop := by decide
theorem test_decode_sha256_init : decode (word 0b00000000 0b00000001) = .ok .sha256Init := by decide
theorem test_decode_sha256_update : decode (word 0b00000000 0b00000010) = .ok .sha256Update := by decide
theorem test_decode_sha256_final : decode (word 0b00000000 0b00000011) = .ok .sha256Final := by decide
theorem test_decode_sha256 : decode (word 0b00000000 0b00000100) = .ok .sha256 := by decide
theorem test_decode_sha256d : decode (word 0b00000000 0b00000101) = .ok .sha256d := by decide
theorem test_decode_hmac_sha256 : decode (word 0b00000000 0b00000110) = .ok .hmacSha256 := by decide
theorem test_decode_rmd160_init : decode (word 0b00000000 0b00010001) = .ok .rmd160Init := by decide
theorem test_decode_rmd160_update : decode (word 0b00000000 0b00010010) = .ok .rmd160Update := by decide
theorem test_decode_rmd160_final : decode (word 0b00000000 0b00010011) = .ok .rmd160Final := by decide
theorem test_decode_rmd160 : decode (word 0b00000000 0b00010100) = .ok .rmd160 := by decide
theorem test_decode_hash160 : decode (word 0b00000000 0b00010101) = .ok .hash160 := by decide
theorem test_decode_b58_enc : decode (word 0b00000000 0b00100001) = .ok .b58Enc := by decide
theorem test_decode_b58_dec : decode (word 0b00000000 0b00100010) = .ok .b58Dec := by decide
theorem test_decode_b58_checksum : decode (word 0b00000000 0b00100011) = .ok .b58Checksum := by decide
theorem test_decode_b58chk_enc : decode (word 0b00000000 0b00100100) = .ok .b58chkEnc := by decide
theorem test_decode_b58chk_dec : decode (word 0b00000000 0b00100101) = .ok .b58chkDec := by decide
theorem test_decode_wif_enc : decode (word 0b00000000 0b00110001) = .ok (.wifEnc false) := by decide
theorem test_decode_wif_enc_c : decode (word 0b00000001 0b00110001) = .ok (.wifEnc true) := by decide
theorem test_decode_wif_dec : decode (word 0b00000000 0b00110010) = .ok .wifDec := by decide
theorem test_decode_der_enc : decode (word 0b00000000 0b00110011) = .ok (.derEnc false) := by decide
theorem test_decode_der_enc_legacy : decode (word 0b00000001 0b00110011) = .ok (.derEnc true) := by decide
theorem test_decode_der_dec : decode (word 0b00000000 0b00110100) = .ok .derDec := by decide
theorem test_decode_keyrec_enc : decode (word 0b00000000 0b00110101) = .ok (.keyrecEnc false false) := by decide
theorem test_decode_keyrec_enc_v : decode (word 0b00000001 0b00110101) = .ok (.keyrecEnc true false) := by decide
theorem test_decode_keyrec_enc_c : decode (word 0b00000010 0b00110101) = .ok (.keyrecEnc false true) := by decide
theorem test_decode_keyrec_enc_v_c : decode (word 0b00000011 0b00110101) = .ok (.keyrecEnc true true) := by decide
theorem test_decode_keyrec_dec : decode (word 0b00000000 0b00110110) = .ok .keyrecDec := by decide

-- ENC-2, ENC-4, ENC-8: the reason a word is illegal
theorem test_decode_illegal :
    decode 0x00000007 = .error .unassignedOp ∧ decode 0x00000100 = .error .modOutsideMask ∧
    decode 0x00010000 = .error .reservedBits := by decide
theorem test_decodeTableWord :
    decodeTableWord 32 0x00000335 = some (.keyrecEnc true true) ∧ decodeTableWord 32 0x000000ff = none := by decide

/-! ### One command on a small state (spec/95_test_vectors.md) -/

-- ENC-1
theorem test_nop_status :
    reads .status (exec .nop State.reset) = some 0x00000001 := by
  decide +kernel
-- SHA-15, R73
theorem test_sha256Init_leaves_finalized :
    (match exec .sha256Init (finalized State.reset) with
      | .next t => (t.readRegister .status, t.readRegister (.shaH 0))
      | _ => (0, 0)) = (0x00020001, 0x6a09e667) := by
  decide +kernel
-- SHA-13
theorem test_sha256Update_buffers_56 :
    reads .shaBuflen (exec .sha256Update (withSrc (List.replicate 56 0x61))) = some 56 ∧
    reads (.shaH 0) (exec .sha256Update (withSrc (List.replicate 56 0x61))) = some 0x6a09e667 := by
  decide +kernel
-- SHA-15, RMD-12
theorem test_sha256Update_misuse :
    reads .status (exec .sha256Update (finalized State.reset)) = some 0x00030203 := by
  decide +kernel
-- SHA-17
theorem test_sha256Final_empty :
    outcome (exec .sha256Final (withSrc [])) =
      wrote (be 32 0xe3b0c44298fc1c149afbf4c8996fb92427ae41e4649b934ca495991b7852b855) := by
  decide +kernel
-- SHA-17
theorem test_sha256Final_rangeOut :
    reads .status (exec .sha256Final (withRegs 0 0 4070 0 0)) = some 0x00000903 := by
  decide +kernel
-- SHA-6
theorem test_sha256_56_bytes :
    outcome (exec .sha256 (withSrc (List.replicate 56 0x61))) =
      wrote (be 32 0xb35439a4ac6f0948b6d6f9e3c6af0f5f590ce20f1bde7090ef7970686ec6738a) := by
  decide +kernel
-- D256-2: "abc"
theorem test_sha256d_abc :
    outcome (exec .sha256d (withSrc (be 3 0x616263))) =
      wrote (be 32 0x4f8b42c22dd3729b519ba6f68d2da7cc5b2d606d05daed5ad5128cc03e6c6358) := by
  decide +kernel
-- HMAC-7: "abc"
theorem test_hmacSha256_long_key :
    outcome (exec .hmacSha256 (withKey (be 3 0x616263) ((List.range 65).map (BitVec.ofNat 8)))) =
      wrote (be 32 0xdfbffee4671bad00ed5d1e1999d55ed3b0cc774ac357f9ebf649c1612414fcec) := by
  decide +kernel
-- R86
theorem test_rmd160Init_leaves_finalized :
    reads .status (exec .rmd160Init (finalized State.reset)) = some 0x00010001 := by
  decide +kernel
-- RMD-11
theorem test_rmd160Update_70_bytes :
    reads (.rmdH 0) (exec .rmd160Update (withSrc (List.replicate 70 0x61))) = some 0xd42339f0 ∧
    reads .rmdBuflen (exec .rmd160Update (withSrc (List.replicate 70 0x61))) = some 6 := by
  decide +kernel
-- RMD-12
theorem test_rmd160Update_misuse :
    reads .status (exec .rmd160Update (finalized State.reset)) = some 0x00030203 := by
  decide +kernel
-- RMD-1, R88
theorem test_rmd160Final_empty :
    outcome (exec .rmd160Final (withSrc [])) = wrote (be 20 0x9c1185a5c5e9fc54612808977ee8f548b2258d31) := by
  decide +kernel
-- RMD-8a
theorem test_rmd160_55_bytes :
    outcome (exec .rmd160 (withSrc (List.replicate 55 0x61))) =
      wrote (be 20 0x0d8a8c9063a48576a7c97e9f95253a6e53ff6765) := by
  decide +kernel
-- H160-4: "abc"
theorem test_hash160_abc :
    outcome (exec .hash160 (withSrc (be 3 0x616263))) = wrote (be 20 0xbb1be98c142444d7a56aa3981c3942a978e4dc33) := by
  decide +kernel
-- B58-ENC-12: "Hello World!", "2NEpo7TZRRrLZSi2U"
theorem test_b58Enc_hello :
    outcome (exec .b58Enc (withSrc (be 12 0x48656c6c6f20576f726c6421))) = wrote (be 17 0x324e45706f37545a5252724c5a53693255) := by
  decide +kernel
-- B58-ENC-19
theorem test_b58Enc_length :
    outcome (exec .b58Enc (withRegs 4000 257 0 0 0)) = failedWith .length := by
  decide +kernel
-- B58-DEC-11: "111zzz"
theorem test_b58Dec_zeros :
    outcome (exec .b58Dec (withSrc (be 6 0x3131317a7a7a))) = wrote [0x00, 0x00, 0x00, 0x02, 0xfa, 0x27] := by
  decide +kernel
-- B58-DEC-15: "0"
theorem test_b58Dec_char_before_rangeOut :
    outcome (exec .b58Dec { withSrc (be 1 0x30) with operands := ⟨0, 1, 5000, 0, 0⟩ }) = failedWith .b58Char := by
  decide +kernel
-- B58-CK-3
theorem test_b58Checksum_zero :
    outcome (exec .b58Checksum (withSrc [0x00])) = wrote [0x14, 0x06, 0xe0, 0x58] := by
  decide +kernel
-- B58CHK-ENC-3: "abc", "4h3c6RH52R"
theorem test_b58chkEnc_abc :
    outcome (exec .b58chkEnc (withSrc (be 3 0x616263))) = wrote (be 10 0x34683363365248353252) := by
  decide +kernel
-- B58CHK-ENC-8
theorem test_b58chkEnc_length :
    outcome (exec .b58chkEnc (withRegs 0 253 0 0 0)) = failedWith .length := by
  decide +kernel
-- B58CHK-DEC-3: "1Wh4bh"
theorem test_b58chkDec_zero :
    outcome (exec .b58chkDec (withSrc (be 6 0x315768346268))) = wrote [0x00] := by
  decide +kernel
-- B58CHK-DEC-6: "4h3c6RH52S"
theorem test_b58chkDec_mismatch :
    outcome (exec .b58chkDec (withSrc (be 10 0x34683363365248353253))) = failedWith .chkMismatch := by
  decide +kernel
-- WIF-ENC-9: "KwdMAjGmerYanjeui5SHS7JkmpZvVipYvB2LJGU1ZxJwYvP98617"
theorem test_wifEnc_compressed :
    outcome (exec (.wifEnc true)
        (withSrc (be 32 0x0c28fca386c7a227600b2fe50b7cae11ec86d3bf1fbe471be89827e19d72aa1d))) =
      wrote (be 52 0x4b77644d416a476d657259616e6a65756935534853374a6b6d705a76566970597642324c4a4755315a784a775976503938363137) := by
  decide +kernel
-- WIF-DEC-7: "5Km2kuu7vtFDPpxywn4u3NLu8iSdrqhxWT8tUKjeEXs2fPgNpLf"
theorem test_wifDec_version :
    outcome (exec .wifDec (withSrc (be 51 0x354b6d326b7575377674464450707879776e3475334e4c75386953647271687857543874554b6a65455873326650674e704c66))) =
      wrote (List.replicate 32 0) ⟨false, false, .wifVersion⟩ := by
  decide +kernel
-- WIF-DEC-4: "5HpHagT65TZzG1PH3CSu63k8DbpvD8s5ip4nEB3kEsreAbuatmU"
theorem test_wifDec_zero_scalar :
    outcome (exec .wifDec (withSrc (be 51 0x354870486167543635545a7a473150483343537536336b3844627076443873356970346e4542336b4573726541627561746d55))) =
      wrote (List.replicate 32 0) ⟨false, false, .scalarInvalid⟩ := by
  decide +kernel
-- WIF-DEC-2: "KwDiBf89QgGbjEhKnhXJuH7LrciVrZi3qYjgd9M7rFU73sVHnoWn"
theorem test_wifImport_compressed :
    wifImport (fun k => decide (intBe k ≠ 0))
      (be 52 0x4b77446942663839516747626a45684b6e68584a7548374c72636956725a693371596a6764394d3772465537337356486e6f576e) = (be 32 1, ⟨true, true, .ok⟩) := by
  decide +kernel
-- DER-ENC-5
theorem test_derEnc_pad :
    outcome (exec (.derEnc false) (withSrc (be 32 0xff00 ++ be 32 1))) =
      wrote (be 10 0x3008020300ff00020101) := by
  decide +kernel
-- DER-ENC-5
theorem test_derEnc_legacy :
    outcome (exec (.derEnc true) (withSrc (be 32 0xff00 ++ be 32 1))) =
      wrote (be 9 0x30070202ff00020101) := by
  decide +kernel
-- DER-DEC-3
theorem test_derDec_not_minimal :
    outcome (exec .derDec (withSrc (be 9 0x300702020001020102))) = wrote (be 32 1 ++ be 32 2) := by
  decide +kernel
-- DER-DEC-14
theorem test_derDec_33_byte_field :
    outcome (exec .derDec (withSrc (be 5 0x3026022101 ++ List.replicate 32 0xff ++ be 3 0x020101))) =
      failedWith .derFormat := by
  decide +kernel
-- KR-ENC-3
theorem test_keyrecEnc_c :
    outcome (exec (.keyrecEnc false true) (withSrc (be 32 2))) = wrote (be 34 (0x0001 <<< 256 + 2)) := by
  decide +kernel
-- ENC-9
theorem test_keyrecEnc_length :
    outcome (exec (.keyrecEnc true true) (withRegs 0 0 0 0 0)) = failedWith .length := by
  decide +kernel
-- KR-DEC-3
theorem test_keyrecDec_stored_invalid :
    outcome (exec .keyrecDec (withSrc (be 34 (0x0001 <<< 256 + 2)))) =
      wrote (be 32 2) ⟨false, true, .storedInvalid⟩ := by
  decide +kernel
-- KR-DEC-4
theorem test_keyrecDec_zero :
    outcome (exec .keyrecDec (withSrc (be 34 (0x0101 <<< 256)))) =
      wrote (List.replicate 32 0) ⟨false, true, .scalarInvalid⟩ := by
  decide +kernel
-- ENC-1, KR-ENC
theorem test_step_fetches_the_command :
    reads .status (step (State.reset.withFetchWord 32 0x00000000)) = some 0x00000001 ∧
    reads .status (step (State.reset.withFetchWord 32 0x00000435)) = some 0x00000103 := by
  decide +kernel
-- SHA-16
theorem test_misuse_before_rangeOut :
    reads .status (exec .sha256Final (finalized (withRegs 0 0 5000 0 0))) = some 0x00030203 := by
  decide +kernel

/-! ### Witnesses: states and operands that meet the hypotheses of each statement

`withRegs` puts regions at the boundary of DMEM_SIZE = 4096; `withHost` puts an access at the head of the queue. -/

theorem witness_DecodeEncodeBijection :
    Instr.wellFormed (.keyrecEnc true true) = true ∧ decode 0x00000335 = .ok (.keyrecEnc true true) ∧
    encode (.derEnc true) = encode (.derEnc true) := by decide

theorem witness_StepRunsTheCommandWritten :
    ((withHost (hostCMD .nop)).hostQueue = .write32 0x00C 0x00000000 :: [] ∧ decode 0x00000000 = .ok .nop) ∧
    (withHost (hostCMD (.wifEnc true))).hostQueue = .write32 0x00C (encode (.wifEnc true)) :: [] ∧
    (withHost (hostRD .cmd)).hostQueue = .read32 0x00C :: [] ∧
    ((withHost (hostWR .cmd 0x00000007)).hostQueue = .write32 0x00C 0x00000007 :: [] ∧
      decode 0x00000007 = .error .unassignedOp) := by decide

theorem witness_CtrlRegister :
    ((withHost (hostWR .ctrl 0x00000001)).hostQueue = .write32 0x004 0x00000001 :: [] ∧
      (0x00000001 : Word).getLsbD 0 = true) ∧
    ((withHost (hostWR .ctrl 0xfffffffe)).hostQueue = .write32 0x004 0xfffffffe :: [] ∧
      (0xfffffffe : Word).getLsbD 0 = false) := by decide

theorem witness_StatusRegister : (withHost hostACK).hostQueue = .write32 0x008 0x00000003 :: [] := by decide

theorem witness_OperandRegisters :
    Reg.auxLen ∈ [Reg.srcAddr, .srcLen, .dstAddr, .auxAddr, .auxLen] ∧
    (withHost (hostWR .auxLen 0xffffffff)).hostQueue = .write32 Reg.auxLen.offset 0xffffffff :: [] ∧
    ∃ t, exec .nop State.reset = .next t := ⟨by decide, by decide, _, rfl⟩

theorem witness_ResultRegisters :
    (∃ t, exec .sha256Update (finalized State.reset) = .next t ∧ t.status.errcode ≠ .ok) ∧
    (∃ t, exec .b58Enc State.reset = .next t ∧ t.status.errcode = .ok ∧ writesDst .b58Enc = true) ∧
    (∃ t, exec .nop State.reset = .next t ∧ writesDst .nop = false) ∧
    (Instr.nop ≠ .wifDec ∧ Instr.nop ≠ .keyrecDec) ∧
    (∃ t, exec .wifDec (withSrc [0x30]) = .next t ∧ t.status.errcode = .ok) ∧
    (∃ t, exec .keyrecDec (withSrc (be 34 0)) = .next t ∧ t.status.errcode = .ok) :=
  ⟨⟨_, rfl, by decide⟩, ⟨_, rfl, by decide, rfl⟩, ⟨_, rfl, rfl⟩, by decide, ⟨_, rfl, by decide +kernel⟩,
    ⟨_, rfl, by decide +kernel⟩⟩

theorem witness_RegisterMap :
    (0x08C : Offset).toNat < 0x1000 ∧ (0xFFC : Offset).toNat < 0x1000 ∧ (0x000 : Offset).toNat < 0x1000 ∧
    (RegisterOffset 0x08C ∧ (withHost [.read32 0x08C]).hostQueue = .read32 0x08C :: []) ∧
    (RegisterOffset 0x02C ∧ (withHost [.read32 0x02C]).hostQueue = .read32 0x02C :: []) ∧
    (RegisterOffset 0x000 ∧ (withHost [.write32 0x000 1]).hostQueue = .write32 0x000 1 :: [] ∧
      ∀ x ∈ registerMap, x.1 = (0x000 : Offset).toNat → x.2 ≠ .cmd ∧ writable x.2 = false) ∧
    (RegisterOffset 0xFFC ∧ (withHost [.write32 0xFFC 1]).hostQueue = .write32 0xFFC 1 :: [] ∧
      ∀ x ∈ registerMap, x.1 = (0xFFC : Offset).toNat → x.2 ≠ .cmd ∧ writable x.2 = false) := by
  simp only [RegisterOffset]; decide

theorem witness_ContextReadback :
    (absorb256 init256 (List.replicate 63 0x61)).buf.length < 64 ∧
    (absorb160 init160 (List.replicate 63 0x61)).buf.length < 64 ∧
    (withHost [.write32 0x040 1]).hostQueue = .write32 0x040 1 :: [] ∧
    (∀ v, HostAccess.write32 0x040 1 ≠ .write32 0x00C v) ∧
    (∀ v : Word, v.getLsbD 0 = true → HostAccess.write32 0x040 1 ≠ .write32 0x004 v) ∧
    ∃ t, step (withHost [.write32 0x040 1]) = .next t :=
  ⟨by decide +kernel, by decide +kernel, rfl, by simp, by simp, _, rfl⟩

theorem witness_InterruptLevel :
    (withHost hostACK).hostQueue = hostACK ++ [] ∧
    ∃ t, exec .rmd160Final (finalized State.reset) = .next t ∧ t.status.errcode = .misuse ∧ ErrCode.misuse ≠ .ok :=
  ⟨rfl, _, rfl, by decide, by decide⟩

/-- The first and the last DMEM byte, the first and last word, and the reserved part of a smaller DMEM. -/
theorem witness_DmemWindow :
    State.reset.params.wellFormed = true ∧ (0x1000 : Offset).toNat = 0x1000 + 0 ∧
    (0x1FFF : Offset).toNat = 0x1000 + 4095 ∧ (0x1FFC : Offset).toNat = 0x1000 + 4092 ∧ 4092 % 4 = 0 ∧
    (withHost [.write8 0x1FFF 1]).hostQueue = .write8 0x1FFF 1 :: [] ∧
    (withHost [.read8 0x1FFF]).hostQueue = .read8 0x1FFF :: [] ∧
    (withHost [.write32 0x1FFC 1]).hostQueue = .write32 0x1FFC 1 :: [] ∧
    (withHost [.read32 0x1FFC]).hostQueue = .read32 0x1FFC :: [] ∧
    Params.wellFormed ⟨256, 64, 0⟩ = true ∧ (0x1100 : Offset).toNat = 0x1000 + 256 ∧ 256 % 4 = 0 := by decide

theorem witness_BusErrors :
    (withHost [.read16 0x1000]).hostQueue = .read16 0x1000 :: [] ∧
    (withHost [.read8 0x0FFF]).hostQueue = .read8 0x0FFF :: [] ∧
    (withHost [.write32 0x1FFD 0]).hostQueue = .write32 0x1FFD 0 :: [] ∧
    (withHost [.read8 0x1000]).hostQueue = .read8 0x1000 :: [] ∧ State.reset.hostQueue = [] := by decide

theorem witness_ReadsChangeNothing :
    ((withHost [.read8 0x1FFF]).hostQueue = .read8 0x1FFF :: [] ∧ ∃ t, step (withHost [.read8 0x1FFF]) = .next t) ∧
    ((withHost [.read32 0x008]).hostQueue = .read32 0x008 :: [] ∧ ∃ t, step (withHost [.read32 0x008]) = .next t) :=
  ⟨⟨rfl, _, rfl⟩, rfl, _, rfl⟩

theorem witness_UnwrittenBytes :
    State.reset.dmem.read 4095 = none ∧ (withSrc [0x61]).dmem.read 0 = some 0x61 ∧
    ((0x1FFF : Offset).toNat = 0x1000 + 4095 ∧ 4095 < State.reset.params.dmemSize ∧
      (withHost [.read8 0x1FFF, .read8 0x1FFF]).hostQueue = .read8 0x1FFF :: .read8 0x1FFF :: []) ∧
    (2 < (withRegs 0 3 0 2 1).operands.srcLen.toNat ∧ 0 < (withRegs 0 3 0 2 1).operands.auxLen.toNat ∧
      (withRegs 0 3 0 2 1).operands.srcAddr.toNat + 2 = (withRegs 0 3 0 2 1).operands.auxAddr.toNat + 0) ∧
    ((∃ t, step (withHost [.read8 0x1FFF]) = .next t) ∧ (withHost [.read8 0x1FFF]).hostQueue ≠ []) :=
  ⟨by decide, by decide, by decide, by decide, ⟨_, rfl⟩, by decide⟩

theorem witness_FailedCommandsChangeNothing :
    ∃ t, exec .sha256 (withRegs 4096 1 0 0 0) = .next t ∧ t.status.errcode ≠ .ok := ⟨_, rfl, by decide⟩

theorem witness_CommittedCommandsFrame :
    (withSrc [0x00]).params.wellFormed = true ∧
    (∃ t, exec .b58Enc (withSrc [0x00]) = .next t ∧ t.status.errcode = .ok ∧ writesDst .b58Enc = true) ∧
    (∃ t, exec .nop (withSrc [0x00]) = .next t ∧ t.status.errcode = .ok ∧ writesDst .nop = false) :=
  ⟨by decide, ⟨_, rfl, by decide, rfl⟩, _, rfl, by decide, rfl⟩

theorem witness_ErrorCodesPerCommand : ∃ t, exec .derDec (withSrc []) = .next t := ⟨_, rfl⟩

/-- One state for each clause: no clause's condition is empty. -/
theorem witness_ErrorPriority :
    decode 0x80000000 = .error .reservedBits ∧
    Misused .sha256Final (finalized State.reset) ∧
    (¬ Misused .b58Enc (withRegs 4000 257 0 0 0) ∧ LengthBad .b58Enc (withRegs 4000 257 0 0 0)) ∧
    (¬ Misused .sha256 (withRegs 4000 97 0 0 0) ∧ ¬ LengthBad .sha256 (withRegs 4000 97 0 0 0) ∧
      RangeInBad .sha256 (withRegs 4000 97 0 0 0)) ∧
    (¬ LengthBad .b58Dec (withSrc [0x30]) ∧ ¬ RangeInBad .b58Dec (withSrc [0x30]) ∧
      ∃ c ∈ (withSrc [0x30]).srcBytes, idx c = none) ∧
    (¬ LengthBad .b58chkDec (withSrc []) ∧ ¬ RangeInBad .b58chkDec (withSrc []) ∧
      decodeCheck (withSrc []).srcBytes = .error .chkShort) ∧
    (¬ RangeInBad .derDec (withSrc []) ∧ derParse (withSrc []).srcBytes = none) := by
  simp only [Misused, LengthBad, RangeInBad, SrcFits, AuxFits]
  refine ⟨by decide, by decide, ?_, ?_, ?_, ?_, ?_⟩
  · simp; decide
  · simp; decide
  · refine ⟨by simp; decide, by decide, 0x30, by decide, by decide⟩
  · refine ⟨by simp; decide, by decide, by decide⟩
  · exact ⟨by decide, by decide⟩

/-- Every register a NOP does not name is free to differ. -/
theorem witness_CommandsIgnoreUnnamedRegisters :
    (readsSrc .nop = false ∧ readsAux .nop = false ∧ writesDst .nop = false) ∧
    (readsSrc .sha256 = true ∧ (⟨1, 2, 3, 8, 9⟩ : Operands).srcAddr = (withRegs 1 2 3 4 5).operands.srcAddr ∧
      (⟨1, 2, 3, 8, 9⟩ : Operands).srcLen = (withRegs 1 2 3 4 5).operands.srcLen ∧
      (⟨1, 2, 3, 8, 9⟩ : Operands).dstAddr = (withRegs 1 2 3 4 5).operands.dstAddr) := by decide

theorem witness_Sha256UpdateAbsorbs :
    (finalized State.reset).sha.phase = .finalized ∧
    ((withRegs 4000 97 0 0 0).sha.phase = .active ∧ ¬ SrcFits (withRegs 4000 97 0 0 0)) ∧
    ((withRegs 4000 96 0 0 0).sha.phase = .active ∧ SrcFits (withRegs 4000 96 0 0 0)) := by
  simp only [SrcFits]; decide

theorem witness_Rmd160UpdateAbsorbs :
    (finalized State.reset).rmd.phase = .finalized ∧
    ((withRegs 4000 97 0 0 0).rmd.phase = .active ∧ ¬ SrcFits (withRegs 4000 97 0 0 0)) ∧
    ((withRegs 4000 96 0 0 0).rmd.phase = .active ∧ SrcFits (withRegs 4000 96 0 0 0)) := by
  simp only [SrcFits]; decide

theorem witness_Sha256FinalWritesDigest :
    (finalized State.reset).sha.phase = .finalized ∧
    ((withRegs 0 0 4065 0 0).sha.phase = .active ∧ ¬ DstFits (withRegs 0 0 4065 0 0) 32) ∧
    ((withRegs 0 0 4064 0 0).sha.phase = .active ∧ DstFits (withRegs 0 0 4064 0 0) 32) := by
  simp only [DstFits]; decide

theorem witness_Rmd160FinalWritesDigest :
    (finalized State.reset).rmd.phase = .finalized ∧
    ((withRegs 0 0 4077 0 0).rmd.phase = .active ∧ ¬ DstFits (withRegs 0 0 4077 0 0) 20) ∧
    ((withRegs 0 0 4076 0 0).rmd.phase = .active ∧ DstFits (withRegs 0 0 4076 0 0) 20) := by
  simp only [DstFits]; decide

/-- Sha256WritesDigest and Sha256dWritesDigest (a HashCommand of 32 bytes). -/
theorem witness_HashCommand_32 :
    ¬ SrcFits (withRegs 4000 97 0 0 0) ∧
    (SrcFits (withRegs 4000 96 4065 0 0) ∧ ¬ DstFits (withRegs 4000 96 4065 0 0) 32) ∧
    (SrcFits (withRegs 4000 96 4064 0 0) ∧ DstFits (withRegs 4000 96 4064 0 0) 32) := by
  simp only [SrcFits, DstFits]; decide

/-- Rmd160WritesDigest and Hash160WritesDigest (a HashCommand of 20 bytes). -/
theorem witness_HashCommand_20 :
    ¬ SrcFits (withRegs 4000 97 0 0 0) ∧
    (SrcFits (withRegs 4000 96 4077 0 0) ∧ ¬ DstFits (withRegs 4000 96 4077 0 0) 20) ∧
    (SrcFits (withRegs 4000 96 4076 0 0) ∧ DstFits (withRegs 4000 96 4076 0 0) 20) := by
  simp only [SrcFits, DstFits]; decide

/-- B58ChecksumWritesFourBytes (a HashCommand of 4 bytes). -/
theorem witness_HashCommand_4 :
    ¬ SrcFits (withRegs 4000 97 0 0 0) ∧
    (SrcFits (withRegs 4000 96 4093 0 0) ∧ ¬ DstFits (withRegs 4000 96 4093 0 0) 4) ∧
    (SrcFits (withRegs 4000 96 4092 0 0) ∧ DstFits (withRegs 4000 96 4092 0 0) 4) := by
  simp only [SrcFits, DstFits]; decide

theorem witness_HmacWritesDigest :
    ¬ AuxFits (withRegs 0 0 0 4096 1) ∧
    (SrcFits (withRegs 4000 96 4065 4096 0) ∧ AuxFits (withRegs 4000 96 4065 4096 0) ∧
      ¬ DstFits (withRegs 4000 96 4065 4096 0) 32) ∧
    (SrcFits (withRegs 4000 96 4064 4095 1) ∧ AuxFits (withRegs 4000 96 4064 4095 1) ∧
      DstFits (withRegs 4000 96 4064 4095 1) 32) ∧
    (List.replicate 64 (0 : Byte)).length ≤ 64 ∧ (List.replicate 65 (0 : Byte)).length > 64 := by
  simp only [SrcFits, AuxFits, DstFits]; decide

/-- The limit of B58_ENC, B58_DEC, B58CHK_DEC and WIF_DEC, and their regions. -/
theorem witness_B58EncWritesText :
    ¬ (withRegs 0 257 0 0 0).operands.srcLen.toNat ≤ (withRegs 0 257 0 0 0).params.b58Max ∧
    ((withRegs 3841 256 0 0 0).operands.srcLen.toNat ≤ (withRegs 3841 256 0 0 0).params.b58Max ∧
      ¬ SrcFits (withRegs 3841 256 0 0 0)) ∧
    ((withRegs 4096 0 4097 0 0).operands.srcLen.toNat ≤ (withRegs 4096 0 4097 0 0).params.b58Max ∧
      SrcFits (withRegs 4096 0 4097 0 0) ∧
      ¬ DstFits (withRegs 4096 0 4097 0 0) (base58Encode (withRegs 4096 0 4097 0 0).srcBytes).length) ∧
    ((withRegs 4096 0 4096 0 0).operands.srcLen.toNat ≤ (withRegs 4096 0 4096 0 0).params.b58Max ∧
      SrcFits (withRegs 4096 0 4096 0 0) ∧
      DstFits (withRegs 4096 0 4096 0 0) (base58Encode (withRegs 4096 0 4096 0 0).srcBytes).length) := by
  simp only [SrcFits, DstFits]; decide

theorem witness_B58DecWritesBytes :
    withCodes base58Decode (withSrc [0x30]).srcBytes = .error .b58Char ∧
    (withCodes base58Decode (withSrc []).srcBytes = .ok [] ∧ SrcFits (withSrc []) ∧ DstFits (withSrc []) 0 ∧
      ∀ c ∈ (withSrc []).srcBytes, idx c ≠ none) ∧
    (withCodes base58Decode (withRegs 0 0 4097 0 0).srcBytes = .ok [] ∧ ¬ DstFits (withRegs 0 0 4097 0 0) 0) ∧
    (∃ c ∈ [(0x30 : Byte)], idx c = none) ∧
    ((withSrc [0x31]).operands.srcLen.toNat ≤ (withSrc [0x31]).params.b58Max ∧ SrcFits (withSrc [0x31]) ∧
      (∀ c ∈ (withSrc [0x31]).srcBytes, idx c ≠ none) ∧ DstFits (withSrc [0x31]) 1) := by
  simp only [SrcFits, DstFits]
  refine ⟨by decide +kernel, by decide, by decide, by decide, by decide⟩

theorem witness_B58chkEncWritesText :
    ¬ (withRegs 0 253 0 0 0).operands.srcLen.toNat + 4 ≤ (withRegs 0 253 0 0 0).params.b58Max ∧
    ((withRegs 3845 252 0 0 0).operands.srcLen.toNat + 4 ≤ (withRegs 3845 252 0 0 0).params.b58Max ∧
      ¬ SrcFits (withRegs 3845 252 0 0 0)) ∧
    (SrcFits (withRegs 0 0 4091 0 0) ∧ ¬ DstFits (withRegs 0 0 4091 0 0) 6) ∧
    (SrcFits (withRegs 0 0 4090 0 0) ∧ DstFits (withRegs 0 0 4090 0 0) 6) ∧
    (encodeCheck (withRegs 0 0 4090 0 0).srcBytes).length = 6 := by
  simp only [SrcFits, DstFits]; decide +kernel

theorem witness_B58chkDecWritesPayload :
    withCodes decodeCheck (withSrc []).srcBytes = .error .chkShort ∧
    (withCodes decodeCheck (withSrc (be 6 0x33514a6d6e68)).srcBytes = .ok [] ∧
      SrcFits (withSrc (be 6 0x33514a6d6e68)) ∧ DstFits (withSrc (be 6 0x33514a6d6e68)) 0) ∧
    ¬ DstFits (withRegs 0 6 4097 0 0) 0 := by
  simp only [SrcFits, DstFits]; decide +kernel

/-- WifEncWritesText and KeyrecEncWritesRecord: SRC_LEN = 32 exactly. -/
theorem witness_WifEncWritesText :
    ¬ (withRegs 0 31 0 0 0).operands.srcLen.toNat = 32 ∧
    ((withRegs 4065 32 0 0 0).operands.srcLen.toNat = 32 ∧ ¬ SrcFits (withRegs 4065 32 0 0 0)) ∧
    ((withRegs 4064 32 4045 0 0).operands.srcLen.toNat = 32 ∧ SrcFits (withRegs 4064 32 4045 0 0) ∧
      ¬ DstFits (withRegs 4064 32 4045 0 0) 52 ∧ ¬ DstFits (withRegs 4064 32 4063 0 0) 34) ∧
    ((withRegs 4064 32 4044 0 0).operands.srcLen.toNat = 32 ∧ SrcFits (withRegs 4064 32 4044 0 0) ∧
      DstFits (withRegs 4064 32 4044 0 0) 52 ∧ DstFits (withRegs 4064 32 4062 0 0) 34) ∧
    (be 32 1).length = 32 := by
  simp only [SrcFits, DstFits]; decide

/-- Each check of WifImport, at a text that fails it first; and one that passes them all. -/
theorem witness_WifDecImportsKey :
    decodeCheck [0x30] = .error .b58Char ∧ decodeCheck (be 2 0x3267) = .error .chkShort ∧
    decodeCheck (be 4 0x31313131) = .error .chkMismatch ∧
    decodeCheck (encodeCheck (be 32 0)) = .ok (be 32 0) ∧ (be 32 0).length ≠ 33 ∧ (be 32 0).length ≠ 34 ∧
    decodeCheck (encodeCheck (be 33 0)) = .ok (be 33 0) ∧ (be 33 0).head? ≠ some 0x80 ∧
    decodeCheck (encodeCheck (be 34 (0x80 <<< 264 + 2))) = .ok (be 34 (0x80 <<< 264 + 2)) ∧
    (be 34 (0x80 <<< 264 + 2)).head? = some 0x80 ∧ (be 34 (0x80 <<< 264 + 2)).getLast? ≠ some 0x01 ∧
    decodeCheck (wifExport (be 32 1) true) = .ok ([0x80] ++ be 32 1 ++ [0x01]) ∧
    (fun _ : List Byte => false) (be 32 1) = false ∧ (fun _ : List Byte => true) (be 32 1) = true := by
  decide +kernel

theorem witness_ImportCommand_regions :
    (SrcFits (withRegs 4096 0 4065 0 0) ∧ ¬ DstFits (withRegs 4096 0 4065 0 0) 32) ∧
    (SrcFits (withRegs 4096 0 4064 0 0) ∧ DstFits (withRegs 4096 0 4064 0 0) 32) ∧
    ((withRegs 4062 34 4065 0 0).operands.srcLen.toNat = 34 ∧ SrcFits (withRegs 4062 34 4065 0 0) ∧
      ¬ DstFits (withRegs 4062 34 4065 0 0) 32) ∧
    ((withRegs 4062 34 4064 0 0).operands.srcLen.toNat = 34 ∧ SrcFits (withRegs 4062 34 4064 0 0) ∧
      DstFits (withRegs 4062 34 4064 0 0) 32) ∧
    ¬ (withRegs 0 33 0 0 0).operands.srcLen.toNat = 34 ∧
    ((withRegs 4063 34 0 0 0).operands.srcLen.toNat = 34 ∧ ¬ SrcFits (withRegs 4063 34 0 0 0)) := by
  simp only [SrcFits, DstFits]; decide

theorem witness_DerEncWritesDer :
    ¬ (withRegs 0 63 0 0 0).operands.srcLen.toNat = 64 ∧
    ((withRegs 4033 64 0 0 0).operands.srcLen.toNat = 64 ∧ ¬ SrcFits (withRegs 4033 64 0 0 0)) ∧
    ((withRegs 4032 64 4089 0 0).operands.srcLen.toNat = 64 ∧ SrcFits (withRegs 4032 64 4089 0 0) ∧
      ¬ DstFits (withRegs 4032 64 4089 0 0) 8) ∧
    ((withRegs 4032 64 4024 0 0).operands.srcLen.toNat = 64 ∧ SrcFits (withRegs 4032 64 4024 0 0) ∧
      DstFits (withRegs 4032 64 4024 0 0) 72) ∧
    (be 32 0x80).length = 32 ∧
    (∃ b c rest, derInt false (be 32 0x80) = b :: c :: rest ∧ b = 0) := by
  simp only [SrcFits, DstFits]; refine ⟨by decide, by decide, by decide, by decide, by decide, 0x00, 0x80, [], ?_⟩
  decide +kernel

theorem witness_DerDecWritesSignature :
    derWithCode (withSrc []).srcBytes = .error .derFormat ∧
    (derWithCode (withSrc (be 8 0x3006020101020102)).srcBytes = .ok (be 32 1 ++ be 32 2) ∧
      DstFits (withSrc (be 8 0x3006020101020102)) 64 ∧ SrcFits (withSrc (be 8 0x3006020101020102)) ∧
      ¬ DstFits { withSrc (be 8 0x3006020101020102) with operands := ⟨0, 8, 4033, 0, 0⟩ } 64) ∧
    ¬ SrcFits (withRegs 4089 8 0 0 0) ∧
    derParse (be 8 0x3006020101020102) = some (be 32 1 ++ be 32 2) := by
  simp only [SrcFits, DstFits]; decide +kernel

/-- The key record's clauses hold of any 32-byte scalar and any predicate; the accepting clause has one. -/
theorem witness_KeyrecDecImportsKey :
    (be 32 2).length = 32 ∧ (fun k : List Byte => decide (intBe k ≠ 0)) (be 32 2) = true := by decide +kernel

theorem witness_CompressionCount : (HashCtx.init 0 : HashCtx Nat).buf.length < 64 := by decide

theorem witness_BlocksAreWhole :
    (∀ n, (be64 n).length = 8) ∧
    (∀ h b, b.length = 64 → compress256 h b = (fun h b => if b.length = 64 then compress256 h b else h) h b) :=
  ⟨fun _ => rfl, fun h b hb => by simp [hb]⟩

theorem witness_StreamingHashesPaddedBlocks :
    (∀ n, (be64 n).length = 8) ∧ ∀ n, (le64 n).length = 8 := ⟨fun _ => rfl, fun _ => rfl⟩

theorem witness_Base58Lengths : base58Decode [0x31] = .ok [0x00] := by decide +kernel

theorem witness_WifRoundTrip :
    (be 32 1).length = 32 ∧ (fun _ : List Byte => true) (be 32 1) = true ∧
    (wifImport (fun _ => true) (wifExport (be 32 1) true)).2.keyValid = true := by decide +kernel

theorem witness_WifTextLength : (be 32 0).length = 32 := by decide

theorem witness_InvariantAtReset : Params.wellFormed ⟨256, 64, 8192⟩ = true := by decide

/-- The invariant holds, with a host access waiting, and the step is taken. -/
theorem witness_StepKeepsInvariant :
    (withHost (hostCMD .nop)).Inv ∧ ∃ t, step (withHost (hostCMD .nop)) = .next t :=
  ⟨{ params := by decide
     dmem_wf := List.Pairwise.nil
     dmem_bound := fun c h => by cases h
     sha := ⟨by decide, by decide, fun _ => by decide, fun h => by cases h⟩
     rmd := ⟨by decide, by decide, fun _ => by decide, fun h => by cases h⟩
     resLen_le := by decide
     failed := fun h => absurd rfl h
     valid_diag := fun h => by cases h }, _, rfl⟩

theorem witness_CleanHostNeverStops :
    (withHost (hostWRB 0 [0x61] ++ hostRUN .sha256 0 1 0x100 ++ hostCHECK ++ hostACK)).busClean = true := by decide

end Sys2Proof.Tests
end

section
/-! SUPPORT. The Base58 and Base58Check codec inverts itself (R96, R97, R102, R103): a text decodes to `b`
exactly when `b` encodes to the text. -/

namespace Sys2Proof.Machine

/-! ### Leading bytes -/

/-- A run of `z` bytes before something else is counted in full. -/
theorem leadingCount_replicate_append {x : Byte} {r : List Byte} (h : r.head? ≠ some x) (z : Nat) :
    leadingCount x (List.replicate z x ++ r) = z := by
  have hr : r.takeWhile (· == x) = [] := by
    cases r with
    | nil => rfl
    | cons c r => exact List.takeWhile_cons_of_neg (by simpa using h)
  rw [leadingCount, List.takeWhile_append_of_pos (by simp), hr]
  simp

/-- The counted run is at the front of the sequence. -/
theorem replicate_leadingCount_append_drop (x : Byte) (b : List Byte) :
    List.replicate (leadingCount x b) x ++ b.drop (leadingCount x b) = b := by
  induction b with
  | nil => rfl
  | cons c b ih =>
    by_cases hc : c = x
    · subst hc
      simpa [leadingCount, List.replicate_succ] using ih
    · simp [leadingCount, hc]

/-- The run ends where it is cut. -/
theorem head?_drop_leadingCount (x : Byte) (b : List Byte) :
    (b.drop (leadingCount x b)).head? ≠ some x := by
  induction b with
  | nil => simp
  | cons c b ih =>
    by_cases hc : c = x
    · subst hc
      simpa [leadingCount] using ih
    · simp [leadingCount, hc]

/-! ### Digit strings in any base -/

/-- The shortest digit string does not start with zero (R96). -/
theorem digitsOf_head {base : Nat} (hb : 1 < base) (n : Nat) : (digitsOf base n).head? ≠ some 0 := by
  intro h
  rw [digitsOf_eq hb, List.head?_reverse] at h
  have hne : Nat.digits base n ≠ [] := by
    intro h0
    simp [h0] at h
  rw [List.getLast?_eq_getLast_of_ne_nil hne] at h
  exact Nat.getLast_digit_ne_zero base (Nat.digits_ne_nil_iff_ne_zero.mp hne) (Option.some.inj h)

/-- A digit string that does not start with zero is the shortest one of its number. -/
theorem digitsOf_ofDigits {base : Nat} (hb : 1 < base) {ds : List Nat} (hlt : ∀ d ∈ ds, d < base)
    (hh : ds.head? ≠ some 0) : digitsOf base (Nat.ofDigits base ds.reverse) = ds := by
  rw [digitsOf_eq hb, Nat.digits_ofDigits base hb _ (by simpa using hlt), List.reverse_reverse]
  intro hne h0
  apply hh
  rw [← h0, List.getLast_reverse, List.head?_eq_some_head]

/-! ### Symbols and texts -/

/-- `Idx` reads back what `Sym` writes (R95). -/
theorem idx_sym {d : Nat} (h : d < 58) : idx (sym d) = some d :=
  (by decide : ∀ d < 58, idx (sym d) = some d) d h

/-- `Sym` writes back what `Idx` reads (R95). -/
theorem sym_of_idx {c : Byte} {d : Nat} (h : idx c = some d) : d < 58 ∧ sym d = c := by
  obtain ⟨hlt, hc, -⟩ := List.idxOf?_eq_some_iff.mp h
  exact ⟨hlt, by rw [sym, List.getD_eq_getElem _ _ hlt, hc]⟩

/-- The digit a symbol stands for. -/
def symbolDigit (c : Byte) : Nat := (idx c).getD 0

@[simp] theorem symbolDigit_sym {d : Nat} (h : d < 58) : symbolDigit (sym d) = d := by
  simp [symbolDigit, idx_sym h]

/-- A symbol is the one of its digit. -/
theorem symbolDigit_spec {c : Byte} (h : idx c ≠ none) : symbolDigit c < 58 ∧ sym (symbolDigit c) = c := by
  obtain ⟨d, hd⟩ := Option.ne_none_iff_exists'.mp h
  rw [symbolDigit, hd]
  exact sym_of_idx hd

/-- The number of a text is the value of its digits in base 58 (R97). -/
theorem base58Number_eq (t : List Byte) :
    base58Number t = Nat.ofDigits 58 (t.map symbolDigit).reverse := by
  rw [Nat.ofDigits_eq_foldr, List.foldr_reverse, List.foldl_map]
  simp only [base58Number, symbolDigit, Nat.cast_id, Nat.add_comm, Nat.mul_comm]

/-- The symbols of a number's digits have that number. -/
theorem base58Number_map_sym_digitsOf (n : Nat) : base58Number ((digitsOf 58 n).map sym) = n := by
  have hd : ((digitsOf 58 n).map sym).map symbolDigit = digitsOf 58 n := by
    rw [List.map_map]
    calc (digitsOf 58 n).map (symbolDigit ∘ sym) = (digitsOf 58 n).map id :=
          List.map_congr_left fun d hd => symbolDigit_sym (digitsOf_lt (by decide) hd)
      _ = digitsOf 58 n := List.map_id _
  rw [base58Number_eq, hd, digitsOf_eq (by decide), List.reverse_reverse, Nat.ofDigits_digits]

/-- A text of symbols that does not start with '1' is the text of its number's digits. -/
theorem map_sym_digitsOf_base58Number {t : List Byte} (hs : ∀ c ∈ t, idx c ≠ none)
    (hh : t.head? ≠ some (sym 0)) : (digitsOf 58 (base58Number t)).map sym = t := by
  have hlt : ∀ d ∈ t.map symbolDigit, d < 58 := by
    simpa using fun c hc => (symbolDigit_spec (hs c hc)).1
  have hhead : (t.map symbolDigit).head? ≠ some 0 := by
    cases t with
    | nil => simp
    | cons c t =>
      intro h0
      have hc := (symbolDigit_spec (hs c (by simp))).2
      rw [show symbolDigit c = 0 by simpa using h0] at hc
      simp [hc] at hh
  rw [base58Number_eq, digitsOf_ofDigits (by decide) hlt hhead, List.map_map]
  calc t.map (sym ∘ symbolDigit) = t.map id :=
        List.map_congr_left fun c hc => (symbolDigit_spec (hs c hc)).2
    _ = t := List.map_id t

/-! ### Encode and Decode -/

/-- `Encode` of `z` zero bytes and a rest that does not start with one (R96). -/
theorem base58Encode_replicate_append {r : List Byte} (h : r.head? ≠ some 0) (z : Nat) :
    base58Encode (List.replicate z 0 ++ r) = List.replicate z (sym 0) ++ (digitsOf 58 (intBe r)).map sym := by
  simp only [base58Encode, leadingCount_replicate_append h, List.drop_left' List.length_replicate]

/-- `Decode` of `z` symbols '1' and a rest of symbols that does not start with one (R97). -/
theorem base58Decode_replicate_append {r : List Byte} (hs : ∀ c ∈ r, idx c ≠ none)
    (h : r.head? ≠ some (sym 0)) (z : Nat) :
    base58Decode (List.replicate z (sym 0) ++ r) = .ok (List.replicate z 0 ++ minBe (base58Number r)) := by
  have hall : (List.replicate z (sym 0) ++ r).any (fun c => (idx c).isNone) = false := by
    have h0 : idx (sym 0) ≠ none := by simp [idx_sym]
    simp only [List.any_eq_false, List.mem_append, List.mem_replicate, Option.isNone_iff_eq_none]
    rintro c (⟨-, rfl⟩ | hc)
    · exact h0
    · exact hs c hc
  simp [base58Decode, hall, leadingCount_replicate_append h]

/-- A text that decodes is made of symbols only (R97). -/
theorem idx_ne_none_of_base58Decode {t b : List Byte} (h : base58Decode t = .ok b) :
    ∀ c ∈ t, idx c ≠ none := by
  simp only [base58Decode] at h
  split at h
  · cases h
  · rename_i hall
    simpa using hall

/-- Decoding an encoded sequence gives it back (R100). -/
theorem base58Decode_base58Encode (x : List Byte) : base58Decode (base58Encode x) = .ok x := by
  have hx := replicate_leadingCount_append_drop 0x00 x
  have hr := head?_drop_leadingCount 0x00 x
  set z := leadingCount 0x00 x
  set r := x.drop z
  have hs : ∀ c ∈ (digitsOf 58 (intBe r)).map sym, idx c ≠ none := by
    simp only [List.mem_map]
    rintro _ ⟨d, hd, rfl⟩
    simp [idx_sym (digitsOf_lt (by decide) hd)]
  have hh : ((digitsOf 58 (intBe r)).map sym).head? ≠ some (sym 0) := by
    intro h0
    obtain ⟨d, hd, hd0⟩ := Option.map_eq_some_iff.mp (List.head?_map ▸ h0)
    have hlt : d < 58 := digitsOf_lt (by decide) (List.mem_of_head? hd)
    have : d = 0 := by rw [← symbolDigit_sym hlt, hd0, symbolDigit_sym (by decide)]
    exact digitsOf_head (by decide) _ (this ▸ hd)
  rw [← hx, base58Encode_replicate_append hr, base58Decode_replicate_append hs hh,
    base58Number_map_sym_digitsOf, minBe_intBe hr]

/-- Encoding what a text decodes to gives the text back (R100). -/
theorem base58Encode_of_base58Decode {t b : List Byte} (h : base58Decode t = .ok b) : base58Encode b = t := by
  have ht := replicate_leadingCount_append_drop (sym 0) t
  have hr := head?_drop_leadingCount (sym 0) t
  have hs : ∀ c ∈ t.drop (leadingCount (sym 0) t), idx c ≠ none := fun c hc =>
    idx_ne_none_of_base58Decode h c (List.mem_of_mem_drop hc)
  set z := leadingCount (sym 0) t
  set r := t.drop z
  have hb : List.replicate z 0 ++ minBe (base58Number r) = b := by
    rw [← ht, base58Decode_replicate_append hs hr] at h
    exact Except.ok.inj h
  have hm : (minBe (base58Number r)).head? ≠ some 0 := by
    by_cases h0 : base58Number r = 0
    · simp [h0]
    · exact minBe_head _ h0
  rw [← hb, base58Encode_replicate_append hm, intBe_minBe, map_sym_digitsOf_base58Number hs hr, ht]

/-! ### Base58Check -/

@[simp] theorem base58Checksum_length (p : List Byte) : (base58Checksum p).length = 4 := by
  simp [base58Checksum, sha256d]

/-- `DecodeCheck` succeeds with `p` exactly on `EncodeCheck(p)` (R102, R103). -/
theorem decodeCheck_eq_ok_iff {t p : List Byte} : decodeCheck t = .ok p ↔ encodeCheck p = t := by
  constructor
  · intro h
    unfold decodeCheck at h
    split at h
    · cases h
    · rename_i d hd
      dsimp only at h
      split at h
      · cases h
      · split at h
        · cases h
        · rename_i hsum
          obtain rfl := Except.ok.inj h
          rw [encodeCheck, ← not_not.mp hsum, List.take_append_drop, base58Encode_of_base58Decode hd]
  · rintro rfl
    simp [decodeCheck, encodeCheck, base58Decode_base58Encode]

end Sys2Proof.Machine
end

section
/-! SUPPORT. What a valid key import says of its source (R111, R112, R120), and which commands import. -/

namespace Sys2Proof.Machine

/-- `ValidateScalar` accepts what is not zero and what the Curve Engine accepts (R6). -/
theorem validateScalar_iff {k : List Byte} :
    validateScalar k = true ↔ (∃ x ∈ k, x ≠ 0) ∧ Config.curveAnswer k = true := by
  simp [validateScalar]

/-! ### WIF -/

/-- A payload that passes the length, version and marker checks of R111 is the one of its scalar. -/
theorem wifPayload_of_checks {p : List Byte} (hl : p.length = 33 ∨ p.length = 34)
    (hv : p.getD 0 0 = Config.wifVersion) (hm : p.length = 34 → p.getD 33 0 = 0x01) :
    ((p.drop 1).take 32).length = 32 ∧ wifPayload ((p.drop 1).take 32) (p.length == 34) = p := by
  obtain _ | ⟨v, rest⟩ := p
  · simp at hl
  obtain rfl : v = Config.wifVersion := by simpa using hv
  rw [List.length_cons] at hl hm
  refine ⟨by simp; omega, ?_⟩
  rcases hl with hl | hl
  · have hrest : rest.take 32 = rest := List.take_of_length_le (by omega)
    simp [wifPayload, hrest, show rest.length = 32 by omega]
  · have hmarker : rest.drop 32 = [0x01] := by
      have h33 : rest[32]? = some (rest[32]'(by omega)) := List.getElem?_eq_getElem _
      have := hm hl
      rw [List.drop_eq_getElem_cons (by omega), List.drop_eq_nil_of_le (by omega)]
      simpa [h33] using this
    simp only [wifPayload, List.length_cons, hl, beq_self_eq_true, ↓reduceIte, List.drop_one, List.tail_cons]
    rw [← hmarker, List.append_assoc, List.take_append_drop, List.singleton_append]

/-- Importing the WIF text of an accepted scalar gives it back (R112). -/
theorem wifImport_wifExport {validate : List Byte → Bool} {k : List Byte} (hk : k.length = 32)
    (hv : validate k = true) (c : Bool) : wifImport validate (wifExport k c) = (k, ⟨true, c, .ok⟩) := by
  have hd : decodeCheck (wifExport k c) = .ok (wifPayload k c) := decodeCheck_eq_ok_iff.mpr rfl
  have hkey : k.take 32 = k := List.take_of_length_le hk.le
  cases c <;> simp [wifImport, hd, wifPayload, hk, hkey, hv]

/-- What an import can do: give the invalid sentinel, or find the WIF text of a scalar `validate` accepts. -/
theorem wifImport_cases (validate : List Byte → Bool) (t : List Byte) :
    (∃ d, wifImport validate t = invalidKey d) ∨
    ∃ k c, k.length = 32 ∧ validate k = true ∧ t = wifExport k c := by
  unfold wifImport
  split
  · exact .inl ⟨_, rfl⟩
  rename_i p hd
  split
  · exact .inl ⟨_, rfl⟩
  rename_i hl
  split
  · exact .inl ⟨_, rfl⟩
  rename_i hver
  split
  · exact .inl ⟨_, rfl⟩
  rename_i hm
  dsimp only
  split
  · exact .inl ⟨_, rfl⟩
  rename_i hval
  obtain ⟨hlen, hp⟩ := wifPayload_of_checks (p := p) (by omega) (not_not.mp hver) (by tauto)
  exact .inr ⟨_, p.length == 34, hlen, by simpa using hval, by rw [wifExport, hp, decodeCheck_eq_ok_iff.mp hd]⟩

/-- A text imports as a valid key only when it is the WIF text of the accepted scalar that comes out (R111). -/
theorem wifImport_of_keyValid {validate : List Byte → Bool} {t : List Byte}
    (h : (wifImport validate t).2.keyValid = true) :
    (wifImport validate t).1.length = 32 ∧ validate (wifImport validate t).1 = true ∧
      ∃ c, t = wifExport (wifImport validate t).1 c := by
  obtain ⟨d, hd⟩ | ⟨k, c, hk, hv, rfl⟩ := wifImport_cases validate t
  · simp [hd, invalidKey] at h
  · rw [wifImport_wifExport hk hv]
    exact ⟨hk, hv, c, rfl⟩

/-! ### The key record -/

/-- The import of a record by its parts (R118, R120). -/
theorem keyRecordImport_append (validate : List Byte → Bool) (vb cb : Byte) {k : List Byte}
    (hk : k.length = 32) :
    (keyRecordImport validate ([vb, cb] ++ k)).1 = k ∧
      (keyRecordImport validate ([vb, cb] ++ k)).2.keyValid = (vb != 0 && validate k) := by
  simp [keyRecordImport, ← hk]

/-- 34 bytes are two flag bytes and a scalar (R118). -/
theorem exists_record_of_length {r : List Byte} (h : r.length = 34) :
    ∃ vb cb k, r = [vb, cb] ++ k ∧ k.length = 32 := by
  obtain _ | ⟨vb, _ | ⟨cb, k⟩⟩ := r
  · simp at h
  · simp at h
  · exact ⟨vb, cb, k, rfl, by simpa using h⟩

/-! ### The commands -/

/-- `k` is a scalar the Curve Engine accepts, and the source bytes of an import command carry it: as the
WIF text of `k`, or as a record marked valid (R6, R112, R120). -/
structure ImportsKey (i : Instr) (src k : List Byte) : Prop where
  length : k.length = 32
  nonzero : ∃ x ∈ k, x ≠ 0
  accepted : Config.curveAnswer k = true
  source : (i = .wifDec ∧ ∃ c, src = wifExport k c) ∨
    (i = .keyrecDec ∧ ∃ vb cb : Byte, vb ≠ 0 ∧ src = [vb, cb] ++ k)

variable {i : Instr} {s : State} {src aux k : List Byte} {r : Result}

theorem textResult_flags {x : Except TextError (List Byte)} (h : textResult x = .ok r) :
    r.flags = ResFlags.zero := by
  cases x <;> cases h
  rfl

theorem derResult_flags {x : Option (List Byte)} (h : derResult x = .ok r) : r.flags = ResFlags.zero := by
  cases x <;> cases h
  rfl

theorem TextError.errCode_ne_ok (e : TextError) : e.errCode ≠ .ok := by
  cases e <;> decide

theorem textResult_error_ne_ok {x : Except TextError (List Byte)} {code : ErrCode}
    (h : textResult x = .error code) : code ≠ .ok := by
  cases x <;> cases h
  exact TextError.errCode_ne_ok _

theorem derResult_error_ne_ok {x : Option (List Byte)} {code : ErrCode} (h : derResult x = .error code) :
    code ≠ .ok := by
  cases x <;> cases h
  decide

/-- Only the two import commands set result flags (R22). -/
theorem computeOf_flags_of_not_import (hw : i ≠ .wifDec) (hk : i ≠ .keyrecDec)
    (h : computeOf i s src aux = .ok r) : r.flags = ResFlags.zero := by
  cases i with
  | wifDec => exact absurd rfl hw
  | keyrecDec => exact absurd rfl hk
  | b58Dec | b58chkDec => exact textResult_flags h
  | derDec => exact derResult_flags h
  | _ => cases h; rfl

/-- No computation fails with the code of success (R123). -/
theorem computeOf_error_ne_ok {code : ErrCode} (h : computeOf i s src aux = .error code) : code ≠ .ok := by
  cases i with
  | b58Dec | b58chkDec => exact textResult_error_ne_ok h
  | derDec => exact derResult_error_ne_ok h
  | _ => cases h

/-- A result that says KEY_VALID is the import of the key it writes. -/
theorem importsKey_of_keyValid (h34 : i = .keyrecDec → src.length = 34)
    (h : computeOf i s src aux = .ok r) (hv : r.flags.keyValid = true) : ImportsKey i src r.out := by
  by_cases hw : i = .wifDec
  · subst hw
    cases h
    obtain ⟨hlen, hval, c, hc⟩ := wifImport_of_keyValid hv
    obtain ⟨hnz, hacc⟩ := validateScalar_iff.mp hval
    exact ⟨hlen, hnz, hacc, .inl ⟨rfl, c, hc⟩⟩
  by_cases hk : i = .keyrecDec
  · subst hk
    obtain ⟨vb, cb, k, rfl, hlen⟩ := exists_record_of_length (h34 rfl)
    obtain ⟨hout, hflag⟩ := keyRecordImport_append validateScalar vb cb hlen
    cases h
    rw [hflag, Bool.and_eq_true, bne_iff_ne] at hv
    obtain ⟨hnz, hacc⟩ := validateScalar_iff.mp hv.2
    show ImportsKey _ _ (keyRecordImport validateScalar ([vb, cb] ++ k)).1
    rw [hout]
    exact ⟨hlen, hnz, hacc, .inr ⟨rfl, vb, cb, hv.1, rfl⟩⟩
  · simp [computeOf_flags_of_not_import hw hk h, ResFlags.zero] at hv

/-- An import command whose source carries an accepted key says KEY_VALID. -/
theorem keyValid_of_importsKey (h : computeOf i s src aux = .ok r) (hi : ImportsKey i src k) :
    r.flags.keyValid = true := by
  obtain ⟨hlen, hnz, hacc, ⟨rfl, c, rfl⟩ | ⟨rfl, vb, cb, hvb, rfl⟩⟩ := hi
  · cases h
    simp [wifImport_wifExport hlen (validateScalar_iff.mpr ⟨hnz, hacc⟩)]
  · cases h
    simp only [(keyRecordImport_append validateScalar vb cb hlen).2, Bool.and_eq_true, bne_iff_ne]
    exact ⟨hvb, validateScalar_iff.mpr ⟨hnz, hacc⟩⟩

/-- An import command reads SRC and writes DST (R46). -/
theorem ImportsKey.form (h : ImportsKey i src k) :
    (operandForm i).src = true ∧ (operandForm i).dst = true := by
  obtain ⟨rfl, -⟩ | ⟨rfl, -⟩ := h.source <;> exact ⟨rfl, rfl⟩

@[simp] theorem State.srcBytes_length (s : State) : s.srcBytes.length = s.operands.srcLen.toNat := by
  simp [State.srcBytes, State.readBytes]

/-- The record KEYREC_DEC reads is 34 bytes (R55). -/
theorem keyrecDec_src_length (h : (operandForm .keyrecDec).Ready s) :
    (s.inputs (operandForm .keyrecDec)).1.length = 34 := by
  have hl := h.length
  simpa [operandForm, LengthLimit.allows, State.inputs] using hl

/-- A command ends as an abort with an error code, or as the commit of what it computed. -/
theorem execute_abort_or_commit (i : Instr) (s : State) :
    (∃ code, code ≠ .ok ∧ s.execute (operandForm i) (computeOf i s) = s.abort code) ∨
    ((operandForm i).Ready s ∧ ∃ r,
      computeOf i s (s.inputs (operandForm i)).1 (s.inputs (operandForm i)).2 = .ok r ∧
      s.execute (operandForm i) (computeOf i s) = s.commit (operandForm i).dst r) := by
  rcases State.execute_cases s (operandForm i) (computeOf i s) with
    ⟨-, he⟩ | ⟨-, -, he⟩ | ⟨-, -, -, he⟩ | ⟨-, code, hc, he⟩ | ⟨-, r, -, -, -, he⟩ | ⟨hready, r, hc, -, he⟩
  · exact .inl ⟨_, by decide, he⟩
  · exact .inl ⟨_, by decide, he⟩
  · exact .inl ⟨_, by decide, he⟩
  · exact .inl ⟨code, computeOf_error_ne_ok hc, he⟩
  · exact .inl ⟨_, by decide, he⟩
  · exact .inr ⟨hready, r, hc, he⟩

/-- A commit puts its output at DST_ADDR (R58). -/
theorem State.commit_read_dst (s : State) (r : Result) {j : Nat} (h : j < r.out.length) :
    (s.commit true r).dmem.read (s.operands.dstAddr.toNat + j) = some r.out[j] := by
  simp [Memory.read_writeBytes, h]

/-- KEY_VALID after a command: it succeeded, its SRC bytes carry an accepted key, and the key is at DST. -/
theorem exec_keyValid_iff {t : State} (ht : exec i s = .next t) :
    t.resFlags.keyValid = true ↔ t.status.errcode = .ok ∧ ∃ k, ImportsKey i s.srcBytes k ∧
      ∀ (j : Nat) (h : j < k.length), t.dmem.read (s.operands.dstAddr.toNat + j) = some k[j] := by
  rw [exec_next ht]
  obtain ⟨code, hcode, he⟩ | ⟨hready, r, hc, he⟩ := execute_abort_or_commit i s
  · simp [he, hcode, ResFlags.zero]
  · have source : ∀ {k}, ImportsKey i (s.inputs (operandForm i)).1 k ↔ ImportsKey i s.srcBytes k := by
      intro k
      constructor <;> intro h <;> simpa [State.inputs, h.form.1] using h
    rw [he]
    constructor
    · intro hv
      have h34 : i = .keyrecDec → (s.inputs (operandForm i)).1.length = 34 := by
        rintro rfl
        exact keyrecDec_src_length hready
      have hk : ImportsKey i (s.inputs (operandForm i)).1 r.out := importsKey_of_keyValid h34 hc hv
      refine ⟨rfl, r.out, source.mp hk, fun j hj => ?_⟩
      rw [hk.form.2]
      exact s.commit_read_dst r hj
    · rintro ⟨-, k, hk, -⟩
      exact keyValid_of_importsKey hc (source.mpr hk)

end Sys2Proof.Machine
end

section
/-! The statement of 00_scope.md. -/

namespace Sys2Proof.Machine

/-- Settles O56: every command has a next state (`exec_eq`), and KEY_VALID in it is `exec_keyValid_iff`. -/
theorem validKeysAreNotZero : Obligations.ValidKeysAreNotZero := by
  intro i s
  refine ⟨_, exec_eq i s, (exec_keyValid_iff (exec_eq i s)).trans (and_congr_right fun _ => exists_congr fun k => ?_)⟩
  constructor
  · rintro ⟨⟨hlen, hnz, hacc, hsrc⟩, hdst⟩
    exact ⟨hlen, hnz, hacc, hsrc, hdst⟩
  · rintro ⟨hlen, hnz, hacc, hsrc, hdst⟩
    exact ⟨⟨hlen, hnz, hacc, hsrc⟩, hdst⟩

end Sys2Proof.Machine
end

section
/-! SUPPORT. How a command ends, and what `Compute` gives the frame: its length of output, its contexts and
its flags. -/

namespace Sys2Proof.Machine

open Sys2Proof.Claims

variable {i : Instr} {s t : State} {src aux : List Byte} {r : Result}

/-- `t` is `s` after a command that ended with an error: nothing but `abort` (R59). -/
def AbortsTo (s t : State) : Prop := ∃ code, code ≠ .ok ∧ t = s.abort code

/-- `t` is `s` after a command that passed every check, with `r` what it computed (R58). -/
structure CommitsTo (i : Instr) (s t : State) (r : Result) : Prop where
  ready : (operandForm i).Ready s
  computed : computeOf i s (s.inputs (operandForm i)).1 (s.inputs (operandForm i)).2 = .ok r
  dst_fits : (operandForm i).dst = true → s.operands.dstAddr.toNat + r.out.length ≤ s.params.dmemSize
  next : t = s.commit (operandForm i).dst r

/-- The frame aborts, or commits what was computed with every check passed. -/
theorem execute_ends (i : Instr) (s : State) :
    AbortsTo s (s.execute (operandForm i) (computeOf i s)) ∨
      ∃ r, CommitsTo i s (s.execute (operandForm i) (computeOf i s)) r := by
  rcases State.execute_cases s (operandForm i) (computeOf i s) with
    ⟨-, he⟩ | ⟨-, -, he⟩ | ⟨-, -, -, he⟩ | ⟨-, code, hc, he⟩ | ⟨-, r, -, -, -, he⟩ | ⟨hready, r, hc, hd, he⟩
  · exact .inl ⟨_, by decide, he⟩
  · exact .inl ⟨_, by decide, he⟩
  · exact .inl ⟨_, by decide, he⟩
  · exact .inl ⟨code, computeOf_error_ne_ok hc, he⟩
  · exact .inl ⟨_, by decide, he⟩
  · exact .inr ⟨r, hready, hc, fun h => by simpa [inDmem] using hd h, he⟩

/-- How a command ends, from its next state. -/
theorem exec_ends (h : exec i s = .next t) : AbortsTo s t ∨ ∃ r, CommitsTo i s t r := by
  rw [exec_next h]
  exact execute_ends i s

/-- How a word written to CMD ends, legal or not: it always has a next state. -/
theorem runCommand_ends (v : Word) (s : State) :
    ∃ t, runCommand v s = .next t ∧ (AbortsTo s t ∨ ∃ i r, CommitsTo i s t r) := by
  obtain ⟨i, -, h⟩ | ⟨e, -, h⟩ := runCommand_cases v s
  · obtain ha | ⟨r, hr⟩ := execute_ends i s
    · exact ⟨_, h.trans (exec_eq i s), .inl ha⟩
    · exact ⟨_, h.trans (exec_eq i s), .inr ⟨i, r, hr⟩⟩
  · exact ⟨_, h, .inl ⟨_, by decide, rfl⟩⟩

/-- A command that succeeded was no abort, so it committed. -/
theorem exec_commits_of_ok (h : exec i s = .next t) (hok : t.status.errcode = .ok) : ∃ r, CommitsTo i s t r := by
  obtain ⟨code, hcode, rfl⟩ | hr := exec_ends h
  · exact absurd hok hcode
  · exact hr

/-- A command that failed was no commit, so it aborted. -/
theorem exec_aborts_of_ne_ok (h : exec i s = .next t) (herr : t.status.errcode ≠ .ok) : AbortsTo s t := by
  obtain ha | ⟨r, hr⟩ := exec_ends h
  · exact ha
  · exact absurd (by rw [hr.next]; rfl) herr

/-- The commands that write DST are the ones whose row of R46 has a DST. -/
theorem operandForm_dst (i : Instr) : (operandForm i).dst = writesDst i := by
  cases i <;> rfl

/-- A codec command computes an output and nothing else. -/
theorem textResult_eq_ok {x : Except TextError (List Byte)} (h : textResult x = .ok r) :
    r = { out := r.out } := by
  cases x <;> cases h
  rfl

/-- DER_DEC computes an output and nothing else. -/
theorem derResult_eq_ok {x : Option (List Byte)} (h : derResult x = .ok r) : r = { out := r.out } := by
  cases x <;> cases h
  rfl

/-- A command with no DST computes no output (R58). -/
theorem computeOf_out_of_not_writesDst (hd : writesDst i = false) (h : computeOf i s src aux = .ok r) :
    r.out = [] := by
  cases i with
  | nop | sha256Init | sha256Update | rmd160Init | rmd160Update => cases h; rfl
  | _ => cases hd

end Sys2Proof.Machine
end

section
/-! SUPPORT. The invariant of a streaming context (R25–R27, R69, R70): `Reset`, `Absorb` and `Final` keep it. -/

namespace Sys2Proof.Machine

variable {α : Type}

/-- `Reset()` gives a good context (R71, R85). -/
theorem HashCtx.Ok.init (iv : α) : (HashCtx.init iv).Ok where
  buf_lt := by simp [HashCtx.init]
  whole_bytes := by simp [HashCtx.init]
  active := by simp [HashCtx.init]
  finalized := by simp [HashCtx.init]

/-- `n` more whole bytes in the 64-bit bit counter: the byte count modulo a block, wrap-around included. -/
theorem bitCounter_add_bytes {b : BitVec 64} (h : b.toNat % 8 = 0) (n : Nat) :
    (b + BitVec.ofNat 64 (8 * n)).toNat % 8 = 0 ∧
      ((b + BitVec.ofNat 64 (8 * n)) >>> 3).toNat % 64 = ((b >>> 3).toNat % 64 + n) % 64 := by
  simp only [BitVec.toNat_add, BitVec.toNat_ofNat, BitVec.toNat_ushiftRight, Nat.shiftRight_eq_div_pow]
  omega

/-- `Absorb` keeps a good context good while it is ACTIVE (R27, R69). -/
theorem HashCtx.Ok.absorb {c : HashCtx α} (h : c.Ok) (hp : c.phase = .active)
    (f : α → List Byte → α) (m : List Byte) : (c.absorb f m).Ok := by
  obtain ⟨hwhole, hcount⟩ := bitCounter_add_bytes h.whole_bytes m.length
  have hbuf := HashCtx.absorb_buf_length f h.buf_lt m
  exact {
    buf_lt := by omega
    whole_bytes := by rwa [HashCtx.absorb_bitlen]
    active := fun _ => by rw [hbuf, HashCtx.absorb_bitlen, hcount, h.active hp]
    finalized := fun hf => by simp [hp] at hf }

/-- `Final` leaves a good context: nothing buffered, the count as it was (R70). -/
theorem HashCtx.Ok.finish {c : HashCtx α} (h : c.Ok) (f : α → List Byte → α)
    (l : BitVec 64 → List Byte) : (c.finish f l).Ok where
  buf_lt := by simp
  whole_bytes := h.whole_bytes
  active := by simp
  finalized := by simp

end Sys2Proof.Machine
end

section
/-! SUPPORT. The invariant of the machine: every effect of an access keeps it. -/

namespace Sys2Proof.Machine

open Sys2Proof.Claims

variable {i : Instr} {s u : State} {src aux : List Byte} {r : Result}

/-- A key that imports as valid has DIAG 0, for WIF (R111). -/
theorem wifImport_valid_diag {validate : List Byte → Bool} {t : List Byte}
    (h : (wifImport validate t).2.keyValid = true) : (wifImport validate t).2.diag = .ok := by
  obtain ⟨d, hd⟩ | ⟨k, c, hk, hv, rfl⟩ := wifImport_cases validate t
  · simp [hd, invalidKey] at h
  · rw [wifImport_wifExport hk hv]

/-- A key that imports as valid has DIAG 0, for a key record (R120). -/
theorem keyRecordImport_valid_diag {validate : List Byte → Bool} {rec : List Byte}
    (h : (keyRecordImport validate rec).2.keyValid = true) : (keyRecordImport validate rec).2.diag = .ok := by
  simp only [keyRecordImport, Bool.and_eq_true, bne_iff_ne] at h ⊢
  obtain ⟨hvalid, hscalar⟩ := h
  rw [if_neg hvalid, hscalar]
  rfl

/-- No command computes a valid key with a diagnostic (R22). -/
theorem computeOf_valid_diag (h : computeOf i s src aux = .ok r) (hv : r.flags.keyValid = true) :
    r.flags.diag = .ok := by
  by_cases hw : i = .wifDec
  · subst hw; cases h; exact wifImport_valid_diag hv
  by_cases hk : i = .keyrecDec
  · subst hk; cases h; exact keyRecordImport_valid_diag hv
  · rw [computeOf_flags_of_not_import hw hk h]; rfl

/-- A context that is no cause of MISUSE is ACTIVE (R54). -/
theorem Phase.eq_active {p : Phase} (h : (p == .finalized) = false) : p = .active := by
  cases p with
  | active => rfl
  | finalized => simp at h

/-- The contexts a command leaves are good: UPDATE absorbs into an ACTIVE one only (R54). -/
theorem computeOf_streams_ok (hs : s.Inv) (hready : (operandForm i).Ready s)
    (h : computeOf i s src aux = .ok r) : (r.sha.getD s.sha).Ok ∧ (r.rmd.getD s.rmd).Ok := by
  cases i with
  | sha256Init => cases h; exact ⟨.init iv256, hs.rmd⟩
  | rmd160Init => cases h; exact ⟨hs.sha, .init iv160⟩
  | sha256Update =>
    cases h
    exact ⟨hs.sha.absorb (Phase.eq_active hready.phase) compress256 src, hs.rmd⟩
  | rmd160Update =>
    cases h
    exact ⟨hs.sha, hs.rmd.absorb (Phase.eq_active hready.phase) compress160 src⟩
  | sha256Final => cases h; exact ⟨hs.sha.finish compress256 be64, hs.rmd⟩
  | rmd160Final => cases h; exact ⟨hs.sha, hs.rmd.finish compress160 le64⟩
  | b58Dec | b58chkDec => rw [textResult_eq_ok h]; exact ⟨hs.sha, hs.rmd⟩
  | derDec => rw [derResult_eq_ok h]; exact ⟨hs.sha, hs.rmd⟩
  | _ => cases h; exact ⟨hs.sha, hs.rmd⟩

/-- The output of a command that commits fits in DMEM, none being the shortest output. -/
theorem CommitsTo.out_length_le (h : CommitsTo i s u r) : r.out.length ≤ s.params.dmemSize := by
  cases hd : (operandForm i).dst with
  | true => have := h.dst_fits hd; omega
  | false =>
    rw [computeOf_out_of_not_writesDst (operandForm_dst i ▸ hd) h.computed]
    exact Nat.zero_le _

/-- A failed command keeps the invariant. -/
theorem State.Inv.abort (hs : s.Inv) (code : ErrCode) : (s.abort code).Inv :=
  { hs with
    resLen_le := Nat.zero_le _
    failed := fun _ => ⟨rfl, rfl⟩
    valid_diag := fun h => by simp [ResFlags.zero] at h }

/-- A successful command keeps the invariant. -/
theorem State.Inv.commit (hs : s.Inv) (h : CommitsTo i s u r) : u.Inv := by
  obtain ⟨hsha, hrmd⟩ := computeOf_streams_ok hs h.ready h.computed
  obtain ⟨hwf, hbound⟩ : (s.commit (operandForm i).dst r).dmem.wf ∧
      ∀ c ∈ (s.commit (operandForm i).dst r).dmem, c.1 < s.params.dmemSize := by
    rw [State.commit_dmem]
    split
    · rename_i hd
      exact ⟨Memory.writeBytes_wf hs.dmem_wf _ _, Memory.writeBytes_bound hs.dmem_bound (h.dst_fits hd)⟩
    · exact ⟨hs.dmem_wf, hs.dmem_bound⟩
  rw [h.next]
  exact {
    params := hs.params
    dmem_wf := hwf
    dmem_bound := hbound
    sha := hsha
    rmd := hrmd
    resLen_le := by
      rw [State.commit_resLen, BitVec.toNat_ofNat]
      exact (Nat.mod_le _ _).trans h.out_length_le
    failed := fun h => absurd rfl h
    valid_diag := computeOf_valid_diag h.computed }

/-- Every command keeps the invariant. -/
theorem State.Inv.execute (hs : s.Inv) (i : Instr) : (s.execute (operandForm i) (computeOf i s)).Inv := by
  obtain ⟨code, -, he⟩ | ⟨r, hr⟩ := execute_ends i s
  · exact he ▸ hs.abort code
  · exact hs.commit hr

/-- A byte written through the window keeps the invariant. -/
theorem State.Inv.writeWindowByte (hs : s.Inv) (a : Nat) (v : Byte) : (s.writeWindowByte a v).Inv := by
  unfold State.writeWindowByte
  split
  · exact { hs with
      dmem_wf := Memory.write_wf hs.dmem_wf a v
      dmem_bound := Memory.write_bound hs.dmem_bound ‹_› v }
  · exact hs

/-- A word written through the window is four bytes written (R33). -/
theorem State.Inv.writeWindowWord (hs : s.Inv) (a : Nat) (v : Word) : (s.writeWindowWord a v).Inv :=
  (((hs.writeWindowByte _ _).writeWindowByte _ _).writeWindowByte _ _).writeWindowByte _ _

/-- The soft reset keeps the invariant (R142). -/
theorem State.Inv.softReset (hs : s.Inv) : s.softReset.Inv where
  params := hs.params
  dmem_wf := hs.dmem_wf
  dmem_bound := hs.dmem_bound
  sha := .init iv256
  rmd := .init iv160
  resLen_le := Nat.zero_le _
  failed := fun h => absurd rfl h
  valid_diag := fun h => by simp [ResFlags.zero] at h

/-- A register write keeps the invariant: but for the soft reset it touches no field the invariant reads. -/
theorem State.Inv.writeRegister (hs : s.Inv) (r : Reg) (v : Word) : (s.writeRegister r v).Inv := by
  cases r with
  | ctrl =>
    show (s.writeCtrl v).Inv
    unfold State.writeCtrl
    split
    · exact hs.softReset
    · exact { hs with }
  | _ => exact { hs with }

/-- The invariant reads none of the model's own fields. -/
theorem State.Inv.respond (hs : s.Inv) (r : Response) : (s.respond r).Inv := { hs with }

theorem State.Inv.popped (hs : s.Inv) (rest : List HostAccess) : (popped s rest).Inv := { hs with }

/-- Every effect of a performed access keeps the invariant. -/
theorem AccessEffect.inv (h : AccessEffect s u) (hs : s.Inv) : u.Inv := by
  cases h with
  | none => exact hs
  | dmemByte a v => exact hs.writeWindowByte a v
  | dmemWord a v => exact hs.writeWindowWord a v
  | register r v => exact hs.writeRegister r v
  | command i => exact hs.execute i
  | illegal => exact hs.abort _

end Sys2Proof.Machine
end

section
/-! SUPPORT. A command word decodes to the command it encodes (R45, R47–R49). -/

namespace Sys2Proof

/-- Every command survives encode and decode, its MOD bits with it. -/
theorem decode_encode (i : Instr) : decode (encode i) = .ok i := by
  cases i with
  | wifEnc c | derEnc c => cases c <;> rfl
  | keyrecEnc v c => cases v <;> cases c <;> rfl
  | _ => rfl

end Sys2Proof
end

section
/-! SUPPORT. The register half of the window (R16): which register stands at an offset, and the step over an
access to it. -/

namespace Sys2Proof.Machine

open Sys2Proof.Claims

variable {s t : State} {off : Offset} {r : Reg} {v : Word} {rest : List HostAccess}

/-! ### Offsets -/

theorem regAt_offset (r : Reg) : regAt r.offset = some r := by
  cases r with
  | shaH i => revert i; decide
  | rmdH i => revert i; decide
  | _ => rfl

theorem registerOffset_offset (r : Reg) : RegisterOffset r.offset := by
  unfold RegisterOffset
  cases r with
  | shaH i => revert i; decide
  | rmdH i => revert i; decide
  | _ => decide

theorem offset_of_regAt (h : regAt off = some r) : r.offset = off := by
  simpa using List.find?_some h

/-- The register half lies below the DMEM window (R16). -/
theorem inWindow_eq_false (h : off.toNat < 0x1000) : inWindow off = false := by
  rw [inWindow, BitVec.getLsbD, Nat.testBit_lt_two_pow h]

/-- The model's offsets are those of R16's table, so the register at an offset is the one listed there. -/
theorem regAt_eq (off : Offset) :
    regAt off = (registerMap.find? (fun x => x.1 == off.toNat)).map Prod.snd := by
  have hoff : ∀ x ∈ registerMap, x.2.offset.toNat = x.1 := by decide
  have hregs : allRegs = registerMap.map Prod.snd := rfl
  rw [regAt, hregs, List.find?_map]
  refine congrArg _ (List.find?_congr fun x hx => ?_)
  simp [← hoff x hx, BitVec.toNat_inj]

/-- The register at an offset has a row of R16's table. -/
theorem mem_registerMap_of_regAt (h : regAt off = some r) : (off.toNat, r) ∈ registerMap := by
  rw [regAt_eq, Option.map_eq_some_iff] at h
  obtain ⟨x, hx, rfl⟩ := h
  have hoff : x.1 = off.toNat := by simpa using List.find?_some hx
  exact hoff ▸ List.mem_of_find?_eq_some hx

/-! ### One access, and one step over it -/

/-- A read in the register half answers the register there, or 0 at a reserved offset (R16). -/
theorem readWord_register (s : State) (h : off.toNat < 0x1000) :
    s.readWord off = ((regAt off).map s.readRegister).getD 0 := by
  rw [State.readWord, inWindow_eq_false h]
  cases regAt off <;> rfl

/-- A write of any register but CMD stores (R16–R20). -/
theorem writeWord_register (s : State) (v : Word) (hr : r ≠ .cmd) :
    writeWord r.offset v s = .next (s.writeRegister r v) := by
  simp [writeWord, inWindow_eq_false (registerOffset_offset r).1, regAt_offset]

/-- A write of CMD runs the word (R19). -/
theorem writeWord_cmd (s : State) (v : Word) : writeWord Reg.cmd.offset v s = runCommand v s := by
  simp [writeWord, inWindow_eq_false (registerOffset_offset .cmd).1, regAt_offset]

/-- A write at a reserved offset is ignored (R16, I9). -/
theorem writeWord_reserved (s : State) (v : Word) (h : off.toNat < 0x1000) (hr : regAt off = none) :
    writeWord off v s = .next s := by
  simp [writeWord, inWindow_eq_false h, hr]

theorem step_of_hostQueue {a : HostAccess} (hq : s.hostQueue = a :: rest) :
    step s = performAccess a (popped s rest) := by
  rw [step, hq]
  rfl

/-- A 32-bit aligned read answers what stands there, and does nothing else (R33, R37). -/
theorem step_read32 (hq : s.hostQueue = .read32 off :: rest) (h4 : off.toNat % 4 = 0) :
    step s = .next ((popped s rest).respond (.word ((popped s rest).readWord off))) := by
  simp [step_of_hostQueue hq, performAccess, busFault, h4, performed, answered]

/-- A 32-bit aligned write is acknowledged after its effects (R41). -/
theorem step_write32 (hq : s.hostQueue = .write32 off v :: rest) (h4 : off.toNat % 4 = 0) :
    step s = answered .ack (writeWord off v (popped s rest)) := by
  simp [step_of_hostQueue hq, performAccess, busFault, h4, performed]

@[simp] theorem readRegister_popped (s : State) (rest : List HostAccess) (r : Reg) :
    (popped s rest).readRegister r = s.readRegister r := by
  cases r <;> rfl

@[simp] theorem readRegister_respond (s : State) (x : Response) (r : Reg) :
    (s.respond x).readRegister r = s.readRegister r := by
  cases r <;> rfl

theorem step_read_register (hq : s.hostQueue = .read32 r.offset :: rest) :
    step s = .next ((popped s rest).respond (.word (s.readRegister r))) := by
  obtain ⟨hlt, h4⟩ := registerOffset_offset r
  rw [step_read32 hq h4, readWord_register _ hlt, regAt_offset]
  simp

theorem step_write_register (hq : s.hostQueue = .write32 r.offset v :: rest) (hr : r ≠ .cmd) :
    step s = .next (((popped s rest).writeRegister r v).respond .ack) := by
  rw [step_write32 hq (registerOffset_offset r).2, writeWord_register _ v hr, answered]

theorem step_write_cmd (hq : s.hostQueue = .write32 Reg.cmd.offset v :: rest) :
    step s = answered .ack (runCommand v (popped s rest)) := by
  rw [step_write32 hq (registerOffset_offset .cmd).2, writeWord_cmd]

theorem runCommand_of_decode_ok {i : Instr} (h : decode v = .ok i) (s : State) : runCommand v s = exec i s := by
  rw [runCommand, h]

theorem runCommand_of_decode_error {e : Illegal} (h : decode v = .error e) (s : State) :
    runCommand v s = .next (s.abort .illegalCmd) := by
  rw [runCommand, h]

/-- A step over a CMD write ends as the command does, and is then acknowledged. -/
theorem step_write_cmd_next (hq : s.hostQueue = .write32 Reg.cmd.offset v :: rest)
    (h : runCommand v (popped s rest) = .next t) : step s = .next (t.respond .ack) := by
  rw [step_write_cmd hq, h, answered]

/-! ### What a register write stores -/

/-- A read-only register ignores a write (R16, I11). -/
theorem writeRegister_of_not_writable (s : State) (v : Word) (h : writable r = false) :
    s.writeRegister r v = s := by
  cases r with
  | ctrl | status | srcAddr | srcLen | dstAddr | auxAddr | auxLen => cases h
  | _ => rfl

theorem writeCtrl_softReset (s : State) (h : v.getLsbD 0 = true) : s.writeCtrl v = s.softReset :=
  if_pos h

theorem writeCtrl_enables (s : State) (h : v.getLsbD 0 = false) :
    s.writeCtrl v = { s with ctrl := { ieDone := v.getLsbD 1, ieErr := v.getLsbD 2 } } := by
  rw [State.writeCtrl, h]
  rfl

/-- An operand register takes all 32 bits, and its write is seen in no other register (R20). -/
theorem readRegister_writeRegister_operand (s : State) (v : Word) (r' : Reg)
    (hr : r ∈ [Reg.srcAddr, .srcLen, .dstAddr, .auxAddr, .auxLen]) :
    (s.writeRegister r v).readRegister r' = if r' = r then v else s.readRegister r' := by
  simp only [List.mem_cons, List.not_mem_nil, or_false] at hr
  rcases hr with rfl | rfl | rfl | rfl | rfl <;> cases r' <;> rfl

/-! ### What leaves the streaming contexts (R24) -/

/-- A register write leaves both contexts, but for the soft reset. -/
theorem writeRegister_streams (s : State) (h : r = .ctrl → v.getLsbD 0 = false) :
    StreamsKept s (s.writeRegister r v) := by
  cases r with
  | ctrl =>
    rw [State.writeRegister, writeCtrl_enables s (h rfl)]
    exact ⟨rfl, rfl⟩
  | _ => exact ⟨rfl, rfl⟩

/-- A 32-bit write leaves both contexts, but for a command and the soft reset. -/
theorem writeWord_streams (hcmd : off ≠ Reg.cmd.offset) (hctrl : off = Reg.ctrl.offset → v.getLsbD 0 = false)
    (h : writeWord off v s = .next t) : StreamsKept s t := by
  unfold writeWord at h
  split at h
  · cases h
    exact ⟨State.writeWindowWord_sha _ _ _, State.writeWindowWord_rmd _ _ _⟩
  split at h
  · rename_i hr
    exact absurd (offset_of_regAt hr).symm hcmd
  · rename_i r _ hr
    cases h
    refine writeRegister_streams s ?_
    rintro rfl
    exact hctrl (offset_of_regAt hr).symm
  · cases h
    exact ⟨rfl, rfl⟩

/-- A host access leaves both contexts, but for a CMD write and a CTRL write with bit 0 set. -/
theorem performAccess_streams {a : HostAccess} (hcmd : ∀ v, a ≠ .write32 Reg.cmd.offset v)
    (hctrl : ∀ v : Word, v.getLsbD 0 = true → a ≠ .write32 Reg.ctrl.offset v)
    (h : performAccess a s = .next t) : StreamsKept s t := by
  unfold performAccess at h
  split at h
  · cases h
  cases a with
  | read8 off => cases h; exact ⟨rfl, rfl⟩
  | read32 off => cases h; exact ⟨rfl, rfl⟩
  | write8 off v => cases h; exact ⟨State.writeWindowByte_sha _ _ _, State.writeWindowByte_rmd _ _ _⟩
  | write32 off v =>
    obtain ⟨u, hu, -⟩ := writeWord_effect off v s
    rw [performed, hu] at h
    cases h
    have hbit : off = Reg.ctrl.offset → v.getLsbD 0 = false := by
      rintro rfl
      exact Bool.eq_false_iff.mpr fun hv => hctrl v hv rfl
    have kept : StreamsKept s u := writeWord_streams (fun ho => hcmd v (ho ▸ rfl)) hbit hu
    exact kept
  | read16 off => cases h; exact ⟨rfl, rfl⟩
  | write16 off v => cases h; exact ⟨rfl, rfl⟩
  | otherWidth off => cases h; exact ⟨rfl, rfl⟩

end Sys2Proof.Machine
end

section
/-! SUPPORT. The words of CTRL, STATUS, RES_FLAGS and the readback registers, bit by bit (R17, R18, R22, R24),
and what they are after power-on (R143). -/

namespace Sys2Proof.Machine

open Sys2Proof.Claims

/-! ### Bits and fields -/

theorem getLsbD_bitAt (b : Bool) (n k : Nat) :
    (bitAt b n).getLsbD k = (decide (k < 32 ∧ k = n) && b) := by
  have hbit : ∀ m, (BitVec.ofBool b).getLsbD m = (decide (m = 0) && b) := by
    cases b <;> simp
  simp only [bitAt, BitVec.getLsbD_shiftLeft, BitVec.getLsbD_setWidth, hbit]
  grind

theorem Ctrl.getLsbD_word (c : Ctrl) (k : Nat) :
    c.word.getLsbD k = if k = 1 then c.ieDone else if k = 2 then c.ieErr else false := by
  simp only [Ctrl.word, BitVec.getLsbD_or, getLsbD_bitAt]
  grind

theorem State.getLsbD_statusWord (s : State) (k : Nat) :
    s.statusWord.getLsbD k =
      if k = 0 then s.status.done else if k = 1 then s.status.err
      else if k = 16 then s.sha.phase.fin else if k = 17 then s.rmd.phase.fin
      else decide (8 ≤ k) && s.status.errcode.code.getLsbD (k - 8) := by
  have hcode : 8 ≤ k - 8 → s.status.errcode.code.getLsbD (k - 8) = false := BitVec.getLsbD_of_ge _ _
  simp only [State.statusWord, BitVec.getLsbD_or, getLsbD_bitAt, BitVec.getLsbD_shiftLeft,
    BitVec.getLsbD_setWidth]
  grind

theorem ResFlags.getLsbD_word (f : ResFlags) (k : Nat) :
    f.word.getLsbD k =
      if k = 0 then f.keyValid else if k = 1 then f.keyCompressed
      else decide (8 ≤ k) && f.diag.code.getLsbD (k - 8) := by
  have hcode : 4 ≤ k - 8 → f.diag.code.getLsbD (k - 8) = false := BitVec.getLsbD_of_ge _ _
  simp only [ResFlags.word, BitVec.getLsbD_or, getLsbD_bitAt, BitVec.getLsbD_shiftLeft,
    BitVec.getLsbD_setWidth]
  grind

/-- A field of a word is the bit vector that has its bits. -/
theorem extractLsb'_eq_of_bits {w n m : Nat} {x : BitVec w} {f : BitVec m}
    (h : ∀ k < m, x.getLsbD (n + k) = f.getLsbD k) : x.extractLsb' n m = f := by
  ext k hk
  rw [BitVec.getElem_extractLsb', h k hk, BitVec.getLsbD_eq_getElem]

/-- The reserved bits of CTRL read 0 (R17). -/
theorem Ctrl.word_reserved (c : Ctrl) : c.word.extractLsb' 3 29 = 0 :=
  extractLsb'_eq_of_bits fun k _ => by rw [Ctrl.getLsbD_word]; grind

/-- ERRCODE of STATUS, and its reserved bits (R18). -/
theorem State.statusWord_fields (s : State) :
    s.statusWord.extractLsb' 2 6 = 0 ∧ s.statusWord.extractLsb' 8 8 = s.status.errcode.code ∧
      s.statusWord.extractLsb' 18 14 = 0 := by
  refine ⟨extractLsb'_eq_of_bits fun k hk => ?_, extractLsb'_eq_of_bits fun k hk => ?_,
    extractLsb'_eq_of_bits fun k hk => ?_⟩
  · rw [State.getLsbD_statusWord]; grind
  · rw [State.getLsbD_statusWord]; grind
  · rw [State.getLsbD_statusWord]; grind

/-- DIAG of RES_FLAGS, and its reserved bits (R22). -/
theorem ResFlags.word_fields (f : ResFlags) :
    f.word.extractLsb' 2 6 = 0 ∧ f.word.extractLsb' 8 4 = f.diag.code ∧ f.word.extractLsb' 12 20 = 0 := by
  refine ⟨extractLsb'_eq_of_bits fun k hk => ?_, extractLsb'_eq_of_bits fun k hk => ?_,
    extractLsb'_eq_of_bits fun k hk => ?_⟩
  · rw [ResFlags.getLsbD_word]; grind
  · rw [ResFlags.getLsbD_word]; grind
  · rw [ResFlags.getLsbD_word]; grind

theorem Phase.fin_iff (p : Phase) : p.fin = true ↔ p = .finalized := by
  cases p <;> simp [Phase.fin]

/-- BUFLEN has six bits (R24). -/
theorem bufLenWord_reserved (n : Nat) : ((BitVec.ofNat 6 n).setWidth 32).extractLsb' 6 26 = 0 := by
  ext k hk
  simp

/-- BUFLEN counts the buffer while it is no full block (R24). -/
theorem bufLenWord_toNat {n : Nat} (h : n < 64) : ((BitVec.ofNat 6 n).setWidth 32).toNat = n := by
  simp
  omega

/-- BITLEN_HI and BITLEN_LO together are the counter (R24). -/
theorem bitLenWords_append (x : BitVec 64) : x.extractLsb' 32 32 ++ x.extractLsb' 0 32 = x := by
  rw [BitVec.extractLsb'_append_extractLsb'_eq_extractLsb' (by decide : 32 = 0 + 32)]
  simp

/-! ### After power-on -/

@[simp] theorem Ctrl.word_off : Ctrl.word { ieDone := false, ieErr := false } = 0 := by decide

@[simp] theorem ResFlags.word_zero : ResFlags.zero.word = 0 := by decide

@[simp] theorem State.powerOn_statusWord (p : Params) : (State.powerOn p).statusWord = 0 := by
  simp only [State.statusWord, State.powerOn_status, State.powerOn_sha, State.powerOn_rmd, HashCtx.init]
  decide

/-- The reset column of R16, register by register. -/
theorem powerOn_registers (p : Params) :
    (registerMap.map Prod.snd).map (State.powerOn p).readRegister =
      [0x44524331, 0, 0, 0, 0, 0, 0, 0, 0, 0, 0, BitVec.ofNat 32 p.dmemSize, BitVec.ofNat 32 p.b58Max] ++
      [0x6a09e667, 0xbb67ae85, 0x3c6ef372, 0xa54ff53a, 0x510e527f, 0x9b05688c, 0x1f83d9ab, 0x5be0cd19, 0, 0, 0] ++
      [0x67452301, 0xefcdab89, 0x98badcfe, 0x10325476, 0xc3d2e1f0, 0, 0, 0] := by
  simp [registerMap, State.readRegister, HashCtx.init, iv256, iv160, Words8.toList, Words5.toList,
    Config.idValue]

end Sys2Proof.Machine
end

section
/-! SUPPORT. What a completion leaves in STATUS, the result registers and `irq` (R18, R21, R22, R58, R59), and
which diagnostics the imports give. -/

namespace Sys2Proof.Machine

open Sys2Proof.Claims

variable {i : Instr} {s t : State} {r : Result}

/-- An abort is what R59 says it is. -/
theorem State.abort_failed (s : State) (code : ErrCode) : Failed s (s.abort code) code where
  params := rfl
  ctrl := rfl
  operands := rfl
  hostQueue := rfl
  response := rfl
  draws := rfl
  sha := rfl
  rmd := rfl
  memory _ := rfl
  resLen := rfl
  resFlags := rfl
  status := rfl

/-- The line of R28, as a proposition. -/
theorem State.irq_iff (s : State) : s.irq = true ↔
    (s.status.done = true ∧ s.ctrl.ieDone = true) ∨ (s.status.err = true ∧ s.ctrl.ieErr = true) := by
  simp [State.irq]

/-- A failed command raises both sources, so either enable suffices (R28). -/
theorem State.irq_abort (s : State) (code : ErrCode) :
    (s.abort code).irq = true ↔ s.ctrl.ieDone = true ∨ s.ctrl.ieErr = true := by
  simp [State.irq_iff]

/-- No command writes an operand register (R20). -/
theorem exec_operands (h : exec i s = .next t) : t.operands = s.operands := by
  obtain ⟨code, -, rfl⟩ | ⟨r, hr⟩ := exec_ends h
  · rfl
  · rw [hr.next, State.commit_operands]

/-- A failed command leaves both result registers 0 (R59). -/
theorem AbortsTo.results (h : AbortsTo s t) : t.resLen = 0 ∧ t.resFlags = ResFlags.zero := by
  obtain ⟨code, -, rfl⟩ := h
  exact ⟨rfl, rfl⟩

/-- RES_LEN counts the bytes a command with a DST wrote there, and that write is all that DMEM sees (R21). -/
theorem CommitsTo.wrote (h : CommitsTo i s t r) (hd : writesDst i = true) :
    t.resLen = BitVec.ofNat 32 r.out.length ∧
      t.dmem = s.dmem.writeBytes s.operands.dstAddr.toNat r.out := by
  simp [h.next, operandForm_dst, hd]

/-- A command with no DST leaves RES_LEN 0 (R21). -/
theorem CommitsTo.resLen_eq_zero (h : CommitsTo i s t r) (hd : writesDst i = false) : t.resLen = 0 := by
  rw [h.next, State.commit_resLen, computeOf_out_of_not_writesDst hd h.computed]
  rfl

/-- RES_FLAGS is what the command computed (R22). -/
theorem CommitsTo.resFlags (h : CommitsTo i s t r) : t.resFlags = r.flags := by
  rw [h.next, State.commit_resFlags]

/-- Only the imports leave RES_FLAGS other than 0 (R22). -/
theorem exec_resFlags_of_not_import (h : exec i s = .next t) (hw : i ≠ .wifDec) (hk : i ≠ .keyrecDec) :
    t.resFlags = ResFlags.zero := by
  obtain ha | ⟨r, hr⟩ := exec_ends h
  · exact ha.results.2
  · rw [hr.resFlags, computeOf_flags_of_not_import hw hk hr.computed]

/-- WIF_DEC that succeeds leaves the flags of its import (R112). -/
theorem exec_wifDec_resFlags (h : exec .wifDec s = .next t) (hok : t.status.errcode = .ok) :
    t.resFlags = (wifImport validateScalar s.srcBytes).2 := by
  obtain ⟨r, hr⟩ := exec_commits_of_ok h hok
  rw [hr.resFlags]
  cases hr.computed
  rfl

/-- KEYREC_DEC that succeeds leaves the flags of its import (R120). -/
theorem exec_keyrecDec_resFlags (h : exec .keyrecDec s = .next t) (hok : t.status.errcode = .ok) :
    t.resFlags = (keyRecordImport validateScalar s.srcBytes).2 := by
  obtain ⟨r, hr⟩ := exec_commits_of_ok h hok
  rw [hr.resFlags]
  cases hr.computed
  rfl

/-- DIAG 8 is no outcome of a WIF import: each of its checks has a code of its own (R111). -/
theorem wifImport_diag_ne_storedInvalid (validate : List Byte → Bool) (t : List Byte) :
    (wifImport validate t).2.diag ≠ .storedInvalid := by
  have htext : ∀ e : TextError, e.wifDiag ≠ .storedInvalid := fun e => by cases e <;> decide
  unfold wifImport
  split
  · exact htext _
  split
  · decide
  split
  · decide
  split
  · decide
  dsimp only
  split
  · decide
  · exact Diag.noConfusion

/-- The outcomes of a key record's import (R120). -/
theorem keyRecordImport_diag_mem (validate : List Byte → Bool) (rec : List Byte) :
    (keyRecordImport validate rec).2.diag ∈ [Diag.ok, .scalarInvalid, .storedInvalid] := by
  unfold keyRecordImport
  dsimp only
  split
  · decide
  split
  · decide
  · decide

end Sys2Proof.Machine
end

section
/-! The statements of 10_state.md. -/

namespace Sys2Proof.Machine

open Sys2Proof.Claims

/-- Settles O58: a step is idle, or one effect between the pop of the queue and the response. -/
theorem stepKeepsInvariant : Obligations.StepKeepsInvariant := by
  intro s t hs h
  obtain ⟨-, rfl⟩ | ⟨a, rest, u, r, -, -, he, rfl⟩ := step_cases h
  · exact hs
  · exact (he.inv (hs.popped rest)).respond r

/-- Settles O9: the fields by `ResFlags.getLsbD_word`, the completions by how a command ends. -/
theorem resultRegisters : Obligations.ResultRegisters := by
  refine ⟨fun s => ?_, rfl, fun p => ⟨rfl, ResFlags.word_zero⟩, fun i s t h => ⟨?_, ?_, ?_, ?_⟩,
    fun s t => ⟨exec_wifDec_resFlags, exec_keyrecDec_resFlags⟩,
    wifImport_diag_ne_storedInvalid validateScalar, keyRecordImport_diag_mem validateScalar⟩
  · obtain ⟨hlow, hdiag, hhigh⟩ := s.resFlags.word_fields
    exact ⟨rfl, s.resFlags.getLsbD_word 0, s.resFlags.getLsbD_word 1, hlow, hdiag, hhigh⟩
  · exact fun herr => (exec_aborts_of_ne_ok h herr).results
  · intro hok hd
    obtain ⟨r, hr⟩ := exec_commits_of_ok h hok
    exact ⟨r.out, hr.wrote hd⟩
  · intro hd
    obtain ha | ⟨r, hr⟩ := exec_ends h
    · exact ha.results.1
    · exact hr.resLen_eq_zero hd
  · exact exec_resFlags_of_not_import h

/-- Settles O10: the model's offsets are those of the table (`regAt_eq`). -/
theorem registerMap_holds : Obligations.RegisterMap := by
  refine ⟨fun off _ => regAt_eq off, ?_, ?_, fun s => ⟨rfl, rfl, rfl⟩, powerOn_registers⟩
  · intro s off rest ⟨hlt, h4⟩ hq
    rw [step_read32 hq h4, readWord_register _ hlt, regAt_eq]
    cases registerMap.find? (fun x => x.1 == off.toNat) with
    | none => rfl
    | some x => simp
  · intro s off v rest ⟨hlt, h4⟩ hq hro
    rw [step_write32 hq h4]
    cases hr : regAt off with
    | none => rw [writeWord_reserved _ v hlt hr, answered]
    | some r =>
      obtain ⟨hcmd, hw⟩ := hro _ (mem_registerMap_of_regAt hr) rfl
      rw [← offset_of_regAt hr, writeWord_register _ v hcmd, writeRegister_of_not_writable _ v hw, answered]

/-- Settles O11: each view by its word's lemma, and the accesses by `performAccess_streams`. -/
theorem contextReadback : Obligations.ContextReadback := by
  refine ⟨fun s => ⟨fun _ => rfl, fun _ => rfl, bufLenWord_toNat, bufLenWord_toNat, bufLenWord_reserved _,
    bufLenWord_reserved _, bitLenWords_append _, bitLenWords_append _⟩, ?_⟩
  intro s t a rest hq hcmd hctrl h
  rw [step_of_hostQueue hq] at h
  have kept : StreamsKept (popped s rest) t := performAccess_streams hcmd hctrl h
  exact kept

/-- Settles O4: CMD is the one register whose write runs its word (`step_write_cmd`). -/
theorem stepRunsTheCommandWritten : Obligations.StepRunsTheCommandWritten := by
  have runs : ∀ (s : State) (v : Word) (rest : List HostAccess) (i : Instr),
      s.hostQueue = .write32 0x00C v :: rest → decode v = .ok i →
      ∃ t, exec i (popped s rest) = .next t ∧ step s = .next (t.respond .ack) := by
    intro s v rest i hq hd
    refine ⟨_, exec_eq i _, step_write_cmd_next hq ?_⟩
    rw [runCommand_of_decode_ok hd, exec_eq]
  refine ⟨runs, fun s i rest hq => runs s _ rest i hq (decode_encode i), ?_, ?_⟩
  · intro s rest hq
    exact step_read_register (r := .cmd) hq
  · intro s v rest e hq hd
    exact ⟨_, State.abort_failed _ _, step_write_cmd_next hq (runCommand_of_decode_error hd _)⟩

/-- Settles O6. -/
theorem ctrlRegister : Obligations.CtrlRegister := by
  refine ⟨fun s => ⟨s.ctrl.getLsbD_word 0, s.ctrl.getLsbD_word 1, s.ctrl.getLsbD_word 2, s.ctrl.word_reserved, ?_⟩,
    fun s v rest hq => ?_, fun p => Ctrl.word_off⟩
  · rw [State.irq_iff, and_comm, and_comm (a := s.status.err = true)]
  · rw [step_write_register (r := .ctrl) hq (by decide), State.writeRegister]
    exact ⟨fun h => ⟨by rw [writeCtrl_softReset _ h], Ctrl.word_off⟩, fun h => by rw [writeCtrl_enables _ h]⟩

/-- Settles O7. -/
theorem statusRegister : Obligations.StatusRegister := by
  refine ⟨fun s => ?_, rfl, ?_, ?_, State.powerOn_statusWord⟩
  · obtain ⟨hlow, hcode, hhigh⟩ := s.statusWord_fields
    have hsha : s.statusWord.getLsbD 16 = s.sha.phase.fin := s.getLsbD_statusWord 16
    have hrmd : s.statusWord.getLsbD 17 = s.rmd.phase.fin := s.getLsbD_statusWord 17
    exact ⟨s.getLsbD_statusWord 0, s.getLsbD_statusWord 1, hlow, hcode, hsha ▸ Phase.fin_iff _,
      hrmd ▸ Phase.fin_iff _, hhigh⟩
  · intro s v rest hq
    exact ⟨((popped s rest).writeStatus v).status, step_write_register (r := .status) hq (by decide),
      rfl, rfl, rfl⟩
  · intro v s
    obtain ⟨t, ht, ⟨code, hcode, rfl⟩ | ⟨i, r, hr⟩⟩ := runCommand_ends v s
    · exact ⟨_, ht, rfl, by simp [hcode]⟩
    · exact ⟨t, ht, by simp [hr.next], by simp [hr.next]⟩

/-- Settles O8. -/
theorem operandRegisters : Obligations.OperandRegisters := by
  refine ⟨fun s r v rest hr hq => ?_, ?_, fun i s t => exec_operands⟩
  · have hcmd : r ≠ .cmd := by rintro rfl; simp at hr
    have hctrl : r ≠ .ctrl := by rintro rfl; simp at hr
    obtain ⟨hsha, hrmd⟩ := writeRegister_streams (r := r) (v := v) (popped s rest) (fun h => absurd h hctrl)
    refine ⟨_, step_write_register hq hcmd, ?_, fun r' hne => ?_, fun a => ?_, hsha, hrmd⟩
    · rw [readRegister_respond, readRegister_writeRegister_operand _ _ _ hr, if_pos rfl]
    · rw [readRegister_respond, readRegister_writeRegister_operand _ _ _ hr, if_neg hne, readRegister_popped]
    · rw [State.respond_dmem, State.writeRegister_dmem, popped]
  · simp [State.readRegister]

/-- Settles O12. -/
theorem interruptLevel : Obligations.InterruptLevel := by
  refine ⟨State.irq_iff, ?_, ?_⟩
  · intro s rest hq
    exact ⟨_, step_write_register (r := .status) hq (by decide), by simp [State.irq, State.writeRegister]⟩
  · rintro i s t code h hcode hne
    obtain ⟨c, -, rfl⟩ := exec_aborts_of_ne_ok h (hcode ▸ hne)
    exact s.irq_abort c

end Sys2Proof.Machine
end

section
/-! SUPPORT. A step over a waiting access: when it faults (R34), and what no effect of an access touches. -/

namespace Sys2Proof.Machine

open Sys2Proof.Claims

variable {s t u : State} {a : HostAccess} {rest : List HostAccess} {off : Offset}

/-! ### The bus errors -/

/-- The DMEM window is the upper half of the offsets (R16, R33). -/
theorem inWindow_iff : inWindow off = true ↔ 0x1000 ≤ off.toNat := by
  constructor
  · intro h
    by_contra hlt
    simp [inWindow_eq_false (Nat.lt_of_not_le hlt)] at h
  · intro h
    have hbit : off.toNat.testBit 12 = true := Nat.testBit_of_two_pow_le_and_two_pow_add_one_gt h off.isLt
    exact hbit

theorem busFault_read8 : busFault (.read8 off) = none ↔ 0x1000 ≤ off.toNat := by
  simp [busFault, inWindow_iff]

theorem busFault_write8 {v : Byte} : busFault (.write8 off v) = none ↔ 0x1000 ≤ off.toNat := by
  simp [busFault, inWindow_iff]

theorem busFault_read32 : busFault (.read32 off) = none ↔ off.toNat % 4 = 0 := by
  simp [busFault]

theorem busFault_write32 {v : Word} : busFault (.write32 off v) = none ↔ off.toNat % 4 = 0 := by
  simp [busFault]

/-- The accesses R34 calls bus errors. -/
theorem busFault_ne_none_iff (a : HostAccess) : busFault a ≠ none ↔
    ∃ off, a = .read16 off ∨ a = .otherWidth off ∨ (∃ v, a = .write16 off v) ∨
      ((a = .read8 off ∨ ∃ v, a = .write8 off v) ∧ off.toNat < 0x1000) ∨
      ((a = .read32 off ∨ ∃ v, a = .write32 off v) ∧ off.toNat % 4 ≠ 0) := by
  cases a with
  | read8 off => simp [busFault_read8]
  | write8 off v => simp [busFault_write8]
  | read32 off => simp [busFault_read32]
  | write32 off v => simp [busFault_write32]
  | read16 off | write16 off v | otherWidth off => simp [busFault]

/-! ### The step over one access -/

/-- A step over an access the bus performs is one effect and its response. -/
theorem step_performed (hq : s.hostQueue = a :: rest) (hf : busFault a = none) :
    ∃ u r, step s = .next (u.respond r) ∧ AccessEffect (popped s rest) u := by
  rw [step_of_hostQueue hq]
  exact performAccess_effect hf _

/-- A step over a waiting access faults exactly on a bus error (R131). -/
theorem step_fault_iff (hq : s.hostQueue = a :: rest) : (∃ f, step s = .fault f) ↔ busFault a ≠ none := by
  constructor
  · rintro ⟨f, hs⟩ hf
    obtain ⟨u, r, hu, -⟩ := step_performed hq hf
    simp [hu] at hs
  · intro hf
    obtain ⟨f, hf⟩ := Option.ne_none_iff_exists'.mp hf
    exact ⟨f, step_fault hq hf⟩

/-- An access that a step carried through was no bus error. -/
theorem busFault_of_step_next (hq : s.hostQueue = a :: rest) (h : step s = .next t) : busFault a = none := by
  by_contra hf
  obtain ⟨f, hs⟩ := (step_fault_iff hq).mpr hf
  simp [h] at hs

/-! ### What an effect leaves -/

/-- No effect of an access touches the parameters, the waiting accesses or the draw counter. -/
theorem AccessEffect.keeps (h : AccessEffect s u) :
    u.params = s.params ∧ u.hostQueue = s.hostQueue ∧ u.draws = s.draws := by
  cases h with
  | none => exact ⟨rfl, rfl, rfl⟩
  | dmemByte a v => simp
  | dmemWord a v => simp
  | register r v => simp
  | command i =>
    obtain ⟨code, -, he⟩ | ⟨r, hr⟩ := execute_ends i s
    · simp [he]
    · simp [hr.next]
  | illegal => exact ⟨rfl, rfl, rfl⟩

/-- A step over an access is one draw (R31, log 5). -/
theorem step_draws (hq : s.hostQueue ≠ []) (h : step s = .next t) : t.draws = s.draws + 1 := by
  obtain ⟨hnil, -⟩ | ⟨a, rest, u, r, -, -, he, rfl⟩ := step_cases h
  · exact absurd hnil hq
  · obtain ⟨-, -, hdraws⟩ := he.keeps
    rw [State.respond_draws, hdraws]

/-! ### A host that makes no bus error -/

theorem busClean_cons (hq : s.hostQueue = a :: rest) (h : s.busClean = true) :
    busFault a = none ∧ ∀ x ∈ rest, busFault x = none := by
  simpa [State.busClean, hq] using h

/-- A clean host's next access is performed, and what still waits is clean. -/
theorem step_of_busClean (h : s.busClean = true) :
    ∃ t, step s = .next t ∧ t.busClean = true ∧ t.params = s.params := by
  cases hq : s.hostQueue with
  | nil => exact ⟨s, by rw [step, hq], h, rfl⟩
  | cons a rest =>
    obtain ⟨hf, hrest⟩ := busClean_cons hq h
    obtain ⟨u, r, hs, he⟩ := step_performed hq hf
    obtain ⟨hparams, hqueue, -⟩ := he.keeps
    exact ⟨_, hs, by simpa [State.busClean, hqueue, popped] using hrest, hparams⟩

theorem run_succ_of_step (k : Nat) (h : step s = .next u) : core.run (k + 1) s = core.run k u := by
  have hcore : core.step s = .next u := h
  simp only [Host.Core.run, hcore]

/-- `k` steps of a clean host have a next state, for every `k` (R127). -/
theorem run_of_busClean (k : Nat) (h : s.busClean = true) :
    ∃ t, core.run k s = .next t ∧ t.busClean = true ∧ t.params = s.params := by
  induction k generalizing s with
  | zero => exact ⟨s, rfl, h, rfl⟩
  | succ k ih =>
    obtain ⟨u, hstep, hclean, hparams⟩ := step_of_busClean h
    obtain ⟨t, hrun, htclean, htparams⟩ := ih hclean
    exact ⟨t, (run_succ_of_step k hstep).trans hrun, htclean, htparams.trans hparams⟩

end Sys2Proof.Machine
end

section
/-! SUPPORT. The DMEM window (R33): the step over an access to it, and what a byte of it holds and reads as. -/

namespace Sys2Proof.Machine

open Sys2Proof.Claims

variable {s : State} {rest : List HostAccess} {off : Offset} {a : Nat}

/-! ### Bytes of DMEM -/

theorem State.readByte_written {v : Byte} (h : s.dmem.read a = some v) : s.readByte a = v := by
  rw [State.readByte, h]
  rfl

/-- An UNWRITTEN byte reads as the free value of the state's draw (R31, log 4). -/
theorem State.readByte_unwritten (h : s.dmem.read a = none) : s.readByte a = Config.freeByte s.draws a := by
  rw [State.readByte, h]
  rfl

/-- The queue is no part of what a byte reads as. -/
@[simp] theorem State.readByte_popped (s : State) (rest : List HostAccess) (a : Nat) :
    (popped s rest).readByte a = s.readByte a := rfl

/-- A region is read byte by byte (R10). -/
theorem State.readBytes_getElem? (s : State) (a : Nat) {n k : Nat} (h : k < n) :
    (s.readBytes a n)[k]? = some (s.readByte (a + k)) := by
  simp [State.readBytes, h]

/-! ### Bytes and words of the window -/

/-- A byte written through the window: in DMEM it is stored, above it is ignored (R33, I9). -/
theorem State.read_writeWindowByte (s : State) (a b : Nat) (v : Byte) :
    (s.writeWindowByte a v).dmem.read b = if b = a ∧ a < s.params.dmemSize then some v else s.dmem.read b := by
  rw [State.writeWindowByte_dmem]
  by_cases h : a < s.params.dmemSize <;> simp [h, Memory.read_write]

/-- With `DMEM_SIZE` a multiple of 4, an aligned word lies inside DMEM or outside it (R5). -/
theorem Params.word_inside {p : Params} (hp : p.wellFormed = true) (h4 : a % 4 = 0) {k : Nat} (hk : k < 4) :
    a + k < p.dmemSize ↔ a < p.dmemSize := by
  have hmul : p.dmemSize % 4 = 0 := by
    simp only [Params.wellFormed, Bool.and_eq_true, beq_iff_eq] at hp
    obtain ⟨⟨⟨⟨⟨hmul, -⟩, -⟩, -⟩, -⟩, -⟩ := hp
    exact hmul
  omega

/-- A word written through the window is its bytes written in DMEM, least significant first (R33). -/
theorem State.writeWindowWord_dmem (s : State) (v : Word) (hp : s.params.wellFormed = true) (h4 : a % 4 = 0) :
    (s.writeWindowWord a v).dmem =
      if a < s.params.dmemSize then s.dmem.writeBytes a (le32 v) else s.dmem := by
  have inside := fun k (hk : k < 4) => Params.word_inside hp h4 hk
  by_cases h : a < s.params.dmemSize
  · simp [State.writeWindowWord, inside, h, le32, Memory.writeBytes]
  · simp [State.writeWindowWord, inside, h]

theorem le32_getElem? (v : Word) {k : Nat} (hk : k < 4) : (le32 v)[k]? = some (v.extractLsb' (8 * k) 8) := by
  interval_cases k <;> rfl

/-- Each byte of an aligned word after its write (R33). -/
theorem State.read_writeWindowWord (s : State) (v : Word) (b : Nat) (hp : s.params.wellFormed = true)
    (h4 : a % 4 = 0) :
    (s.writeWindowWord a v).dmem.read b =
      if a ≤ b ∧ b < a + 4 ∧ a < s.params.dmemSize then some (v.extractLsb' (8 * (b - a)) 8)
      else s.dmem.read b := by
  rw [State.writeWindowWord_dmem s v hp h4]
  by_cases h : a < s.params.dmemSize
  · simp only [h, if_true, and_true, Memory.read_writeBytes, le32_length]
    refine if_ctx_congr Iff.rfl (fun hb => le32_getElem? v ?_) fun _ => rfl
    omega
  · simp [h]

/-- Each byte of a word read through the window, least significant first (R33). -/
theorem State.readWindowWord_byte (s : State) (a : Nat) {k : Nat} (hk : k < 4) :
    (s.readWindowWord a).extractLsb' (8 * k) 8 = s.readWindowByte (a + k) := by
  refine extractLsb'_eq_of_bits fun j hj => ?_
  simp only [State.readWindowWord, BitVec.getLsbD_append]
  interval_cases k <;> grind

/-! ### Window accesses show in no register -/

@[simp] theorem readRegister_writeWindowByte (s : State) (a : Nat) (v : Byte) (r : Reg) :
    (s.writeWindowByte a v).readRegister r = s.readRegister r := by
  unfold State.writeWindowByte
  split
  · cases r <;> rfl
  · rfl

@[simp] theorem readRegister_writeWindowWord (s : State) (a : Nat) (v : Word) (r : Reg) :
    (s.writeWindowWord a v).readRegister r = s.readRegister r := by
  simp [State.writeWindowWord]

/-! ### The step over a window access -/

/-- The DMEM address of a window offset (R33). -/
theorem windowAddr_eq (ho : off.toNat = 0x1000 + a) : windowAddr off = a := by
  have := off.isLt
  rw [windowAddr]
  omega

theorem step_read8 (hq : s.hostQueue = .read8 off :: rest) (hw : 0x1000 ≤ off.toNat) :
    step s = .next ((popped s rest).respond (.byte ((popped s rest).readWindowByte (windowAddr off)))) := by
  rw [step_of_hostQueue hq, performAccess, busFault_read8.mpr hw]
  rfl

theorem step_write8 {v : Byte} (hq : s.hostQueue = .write8 off v :: rest) (hw : 0x1000 ≤ off.toNat) :
    step s = .next (((popped s rest).writeWindowByte (windowAddr off) v).respond .ack) := by
  rw [step_of_hostQueue hq, performAccess, busFault_write8.mpr hw]
  rfl

theorem step_read32_window (hq : s.hostQueue = .read32 off :: rest) (hw : 0x1000 ≤ off.toNat)
    (h4 : off.toNat % 4 = 0) :
    step s = .next ((popped s rest).respond (.word ((popped s rest).readWindowWord (windowAddr off)))) := by
  rw [step_read32 hq h4, State.readWord, if_pos (inWindow_iff.mpr hw)]

theorem step_write32_window {v : Word} (hq : s.hostQueue = .write32 off v :: rest) (hw : 0x1000 ≤ off.toNat)
    (h4 : off.toNat % 4 = 0) :
    step s = .next (((popped s rest).writeWindowWord (windowAddr off) v).respond .ack) := by
  rw [step_write32 hq h4, writeWord, if_pos (inWindow_iff.mpr hw), answered]

/-- A read of an UNWRITTEN byte answers the free value of its draw, and the byte stays UNWRITTEN (R31). -/
theorem step_read8_unwritten (ho : off.toNat = 0x1000 + a) (ha : a < s.params.dmemSize)
    (hq : s.hostQueue = .read8 off :: rest) (hun : s.dmem.read a = none) :
    step s = .next ((popped s rest).respond (.byte (Config.freeByte s.draws a))) := by
  have hin : a < (popped s rest).params.dmemSize := ha
  rw [step_read8 hq (by omega), windowAddr_eq ho, State.readWindowByte, if_pos hin, State.readByte_popped,
    State.readByte_unwritten hun]

end Sys2Proof.Machine
end

section
/-! The statements of 20_memory.md. -/

namespace Sys2Proof.Machine

open Sys2Proof.Claims

/-- Settles O59: a clean host is progress and preservation at every step (`step_of_busClean`). -/
theorem cleanHostNeverStops : Obligations.CleanHostNeverStops :=
  ⟨fun k _ h => run_of_busClean k h, fun i s => ⟨_, exec_eq i s⟩⟩

/-- Settles O13. -/
theorem dmemWindow : Obligations.DmemWindow := by
  intro s off rest a hp ho
  have hw : 0x1000 ≤ off.toNat := by omega
  have haligned : a % 4 = 0 → off.toNat % 4 = 0 := by omega
  have hpop : (popped s rest).params.wellFormed = true := hp
  refine ⟨fun v hq => ⟨_, step_write8 hq hw, fun r => by simp, fun b => ?_⟩, fun hq => ?_,
    fun v h4 hq => ⟨_, step_write32_window hq hw (haligned h4), fun r => by simp, fun b => ?_⟩,
    fun h4 hq => ⟨_, step_read32_window hq hw (haligned h4), fun k hk => ?_⟩⟩
  · rw [State.respond_dmem, windowAddr_eq ho, State.read_writeWindowByte]
    rfl
  · rw [step_read8 hq hw, windowAddr_eq ho]
    rfl
  · rw [State.respond_dmem, windowAddr_eq ho, State.read_writeWindowWord _ v b hpop h4]
    rfl
  · rw [windowAddr_eq ho, State.readWindowWord_byte _ a hk, State.readWindowByte, State.readByte_popped]
    exact if_congr (Params.word_inside hp h4 hk) rfl rfl

/-- Settles O14: `busFault` is the table of R34, and a step faults exactly where it has an entry. -/
theorem busErrors : Obligations.BusErrors := by
  refine ⟨fun s a rest hq => ⟨(step_fault_iff hq).trans (busFault_ne_none_iff a), ?_⟩, fun s hq => by rw [step, hq]⟩
  by_cases hf : busFault a = none
  · obtain ⟨u, r, hs, -⟩ := step_performed hq hf
    exact .inr ⟨_, hs⟩
  · exact .inl ((step_fault_iff hq).mpr hf)

/-- Settles O15. -/
theorem readsChangeNothing : Obligations.ReadsChangeNothing := by
  rintro s t off rest (hq | hq) h
  · rw [step_read8 hq (busFault_read8.mp (busFault_of_step_next hq h))] at h
    cases h
    rfl
  · rw [step_read32 hq (busFault_read32.mp (busFault_of_step_next hq h))] at h
    cases h
    rfl

/-- Settles O16: two reads of one byte are two draws, and a command reads both regions in one draw. -/
theorem unwrittenBytes : Obligations.UnwrittenBytes := by
  refine ⟨fun p a => rfl, fun s a => State.readByte_unwritten, fun s a v => State.readByte_written, ?_, ?_,
    fun s t h hq => step_draws hq h⟩
  · intro s off rest a ho ha hq hun
    have first := step_read8_unwritten ho ha hq hun
    have second := step_read8_unwritten (rest := rest)
      (s := (popped s (.read8 off :: rest)).respond (.byte (Config.freeByte s.draws a))) ho ha rfl hun
    exact ⟨_, _, first, rfl, hun, second, rfl, hun⟩
  · intro s k j hk hj haddr
    rw [State.srcBytes, State.auxBytes, State.readBytes_getElem? s _ hk, State.readBytes_getElem? s _ hj, haddr]

end Sys2Proof.Machine
end

section
/-! SUPPORT. The decoder and the opcode table (R45–R51): which words decode, and to what; which rows match. -/

namespace Sys2Proof

variable {v : Word} {op md mask : Byte} {i j : Instr}

/-! ### The fields of a word -/

/-- A command word is its RSV, MOD and OP fields and nothing else (R45). -/
theorem fields_append (v : Word) : rsvField v ++ modField v ++ opField v = v := by
  simp only [rsvField, modField, opField, BitVec.extractLsb'_append_extractLsb'_eq_extractLsb' (by rfl : 16 = 8 + 8),
    BitVec.extractLsb'_append_extractLsb'_eq_extractLsb' (by rfl : 8 = 0 + 8)]
  exact BitVec.extractLsb'_eq_self

theorem append_eq_append_iff {m n : Nat} {a c : BitVec m} {b d : BitVec n} :
    a ++ b = c ++ d ↔ a = c ∧ b = d := by
  refine ⟨fun h => ?_, fun ⟨hac, hbd⟩ => hac ▸ hbd ▸ rfl⟩
  have hhigh := congrArg (BitVec.extractLsb' n m) h
  have hlow := congrArg (BitVec.extractLsb' 0 n) h
  rw [BitVec.extractLsb'_append_eq_left, BitVec.extractLsb'_append_eq_left] at hhigh
  rw [BitVec.extractLsb'_append_eq_right, BitVec.extractLsb'_append_eq_right] at hlow
  exact ⟨hhigh, hlow⟩

/-- R49's three conditions, as a proposition. -/
theorem legalWord_iff : legalWord v = true ↔
    rsvField v = 0 ∧ opAssigned (opField v) = true ∧ modField v &&& ~~~ modMask (opField v) = 0 := by
  simp [legalWord, and_assoc]

/-! ### The decoder -/

/-- A command without MOD bits is one whose MODMASK is 0 (R49). -/
theorem plainCommand_eq (md : Byte) (i : Instr) : plainCommand md i = modCommand 0 md i := by
  have hall : ~~~ (0 : Byte) = BitVec.allOnes 8 := rfl
  rw [plainCommand, modCommand, hall, BitVec.and_allOnes]

theorem modCommand_eq_ok : modCommand mask md i = .ok j ↔ md &&& ~~~ mask = 0 ∧ i = j := by
  unfold modCommand
  split <;> simp_all

/-- The OP values of R48, in the order of the opcode table. -/
def assignedOps : List Byte :=
  [0x00, 0x01, 0x02, 0x03, 0x04, 0x05, 0x06] ++ [0x11, 0x12, 0x13, 0x14, 0x15] ++
  [0x21, 0x22, 0x23, 0x24, 0x25] ++ [0x31, 0x32, 0x33, 0x34, 0x35, 0x36]

/-- R48's ranges of OP are the OPs of its rows. -/
theorem mem_assignedOps : op ∈ assignedOps ↔ opAssigned op = true := by
  revert op
  decide

/-- The opcode map has an entry for the assigned OPs, and takes MOD inside MODMASK (R49). -/
theorem decodeOp_ok_iff :
    (∃ i, decodeOp op md = .ok i) ↔ opAssigned op = true ∧ md &&& ~~~ modMask op = 0 := by
  rw [← mem_assignedOps]
  unfold decodeOp
  split
  case h_24 => simp_all [assignedOps]
  all_goals simp [plainCommand_eq, modCommand_eq_ok, assignedOps, modMask]

/-- A word decodes exactly when it is legal (R49). -/
theorem decode_ok_iff : (∃ i, decode v = .ok i) ↔ legalWord v = true := by
  rw [legalWord_iff, decode]
  split
  · next hrsv => rw [decodeOp_ok_iff, and_iff_right hrsv]
  · next hrsv => exact iff_of_false (fun ⟨_, h⟩ => nomatch h) (fun ⟨h, _⟩ => hrsv h)

/-- MOD without a bit outside bit 0 is that bit. -/
theorem modBit_eq : md &&& ~~~ 0x01 = 0 → (BitVec.ofBool (md.getLsbD 0)).setWidth 8 = md := by
  revert md
  decide

/-- MOD without a bit outside bits 1 and 0 is those bits. -/
theorem modBits_eq : md &&& ~~~ 0x03 = 0 →
    (BitVec.ofBool (md.getLsbD 1) ++ BitVec.ofBool (md.getLsbD 0)).setWidth 8 = md := by
  revert md
  decide

/-- The command the opcode map gives has the OP and the MOD it was read from (R47, R48). -/
theorem encode_of_decodeOp (h : decodeOp op md = .ok i) : encodeOp i = op ∧ encodeMod i = md := by
  unfold decodeOp at h
  split at h
  case h_24 => cases h
  case h_18 | h_20 =>
    obtain ⟨hmd, rfl⟩ := modCommand_eq_ok.mp h
    exact ⟨rfl, modBit_eq hmd⟩
  case h_22 =>
    obtain ⟨hmd, rfl⟩ := modCommand_eq_ok.mp h
    exact ⟨rfl, modBits_eq hmd⟩
  all_goals
    rw [plainCommand] at h
    split at h
    · next hmd =>
      cases h
      exact ⟨rfl, hmd.symm⟩
    · cases h

/-- A word that decodes is the encoding of its command: no bit of it is dropped (R45–R49). -/
theorem encode_of_decode (h : decode v = .ok i) : encode i = v := by
  unfold decode at h
  split at h
  · next hrsv =>
    obtain ⟨hop, hmod⟩ := encode_of_decodeOp h
    have hfields := fields_append v
    rw [hrsv, ← hop, ← hmod] at hfields
    exact hfields
  · cases h

theorem encode_injective (h : encode i = encode j) : i = j := by
  have hdec : Except.ok i = Except.ok j := (decode_encode i).symm.trans (h ▸ decode_encode j)
  exact Except.ok.inj hdec

/-! ### The opcode table -/

/-- The row of the opcode table for an OP: RSV zero, MOD free inside MODMASK, OP fixed (R49). -/
def rowOf (op : Byte) : OpcodeRow where
  matchBits := 0x0000#16 ++ 0x00#8 ++ op
  mask := 0xFFFF#16 ++ ~~~ modMask op ++ 0xFF#8

/-- The opcode table is one row for each assigned OP. -/
theorem opcodeRows_eq : opcodeRows = assignedOps.map rowOf := by decide

/-- What a row asks of the three fields of a word. -/
theorem rowOf_matches_iff : v &&& (rowOf op).mask = (rowOf op).matchBits ↔
    rsvField v = 0 ∧ modField v &&& ~~~ modMask op = 0 ∧ opField v = op := by
  have hrsv : rsvField v &&& 0xFFFF#16 = rsvField v := BitVec.and_allOnes
  have hop : opField v &&& 0xFF#8 = opField v := BitVec.and_allOnes
  have hand : v &&& (rowOf op).mask = rsvField v ++ (modField v &&& ~~~ modMask op) ++ opField v := by
    conv_lhs => rw [← fields_append v, rowOf, BitVec.and_append, BitVec.and_append, hrsv, hop]
  rw [hand, rowOf, append_eq_append_iff, append_eq_append_iff, and_assoc]
  rfl

/-- The OP of a word picks its row: one matches a legal word, and none any other (R49). -/
theorem matchingRows_length (v : Word) :
    (opcodeRows.filter (fun r => v &&& r.mask == r.matchBits)).length = if legalWord v then 1 else 0 := by
  have hnodup : assignedOps.Nodup := by decide
  rw [opcodeRows_eq, List.filter_map, List.length_map]
  by_cases hbits : rsvField v = 0 ∧ modField v &&& ~~~ modMask (opField v) = 0
  · obtain ⟨hrsv, hmod⟩ := hbits
    have hfilter : assignedOps.filter ((fun r => v &&& r.mask == r.matchBits) ∘ rowOf) =
        assignedOps.filter (· == opField v) := List.filter_congr fun op _ => by
      rw [Bool.eq_iff_iff, Function.comp, beq_iff_eq, beq_iff_eq, rowOf_matches_iff, and_iff_right hrsv]
      constructor
      · rintro ⟨-, hop⟩
        exact hop.symm
      · rintro rfl
        exact ⟨hmod, rfl⟩
    rw [hfilter, ← List.count_eq_length_filter, hnodup.count]
    exact if_congr (by rw [mem_assignedOps, legalWord_iff]; tauto) rfl rfl
  · have hnone : assignedOps.filter ((fun r => v &&& r.mask == r.matchBits) ∘ rowOf) = [] :=
      List.filter_eq_nil_iff.mpr fun op _ hmatch => by
        obtain ⟨hrsv, hmod, rfl⟩ := rowOf_matches_iff.mp (beq_iff_eq.mp hmatch)
        exact hbits ⟨hrsv, hmod⟩
    have hillegal : ¬ legalWord v = true := fun h => by
      obtain ⟨hrsv, -, hmod⟩ := legalWord_iff.mp h
      exact hbits ⟨hrsv, hmod⟩
    rw [hnone, if_neg hillegal, List.length_nil]

end Sys2Proof
end

section
/-! SUPPORT. What the execution frame reads (R46, R54): two states that agree on a form's operands, on DMEM and on
the contexts run a command to the same effects. -/

namespace Sys2Proof.Machine

open Sys2Proof.Claims

variable {s u : State} {f : Form} {compute : List Byte → List Byte → Except ErrCode Result}

/-- `u` holds what `s` holds of all that a command of form `f` may read: CTRL, STATUS, RES_LEN, RES_FLAGS and the
operand registers that `f` does not name are free to differ. -/
structure Form.AgreesOn (f : Form) (s u : State) : Prop where
  params : u.params = s.params
  sha : u.sha = s.sha
  rmd : u.rmd = s.rmd
  dmem : u.dmem = s.dmem
  draws : u.draws = s.draws
  src : f.src = true → u.operands.srcAddr = s.operands.srcAddr ∧ u.operands.srcLen = s.operands.srcLen
  aux : f.aux = true → u.operands.auxAddr = s.operands.auxAddr ∧ u.operands.auxLen = s.operands.auxLen
  dst : f.dst = true → u.operands.dstAddr = s.operands.dstAddr

/-- The effects of a command that a later access can see: all but ERR, which is sticky, and the registers that no
command writes. -/
structure SameEffects (t u : State) : Prop where
  dmem : u.dmem = t.dmem
  sha : u.sha = t.sha
  rmd : u.rmd = t.rmd
  resLen : u.resLen = t.resLen
  resFlags : u.resFlags = t.resFlags
  done : u.status.done = t.status.done
  errcode : u.status.errcode = t.status.errcode

/-- A form with a length limit names SRC (R46, R55). -/
def Form.LimitsSrc (f : Form) : Prop := f.src = false → f.limit = .any

theorem operandForm_limitsSrc (i : Instr) : (operandForm i).LimitsSrc := by
  intro h
  cases i with
  | nop | sha256Init | sha256Final | rmd160Init | rmd160Final => rfl
  | _ => cases h

theorem operandForm_src (i : Instr) : (operandForm i).src = readsSrc i := by
  cases i <;> rfl

theorem operandForm_aux (i : Instr) : (operandForm i).aux = readsAux i := by
  cases i <;> rfl

/-- Of the state itself a command computes with the two contexts only. -/
theorem computeOf_congr (i : Instr) (hsha : u.sha = s.sha) (hrmd : u.rmd = s.rmd) : computeOf i u = computeOf i s := by
  cases i with
  | sha256Update | sha256Final => simp only [computeOf, hsha]
  | rmd160Update | rmd160Final => simp only [computeOf, hrmd]
  | _ => rfl

theorem State.readBytes_congr (hdmem : u.dmem = s.dmem) (hdraws : u.draws = s.draws) (a n : Nat) :
    u.readBytes a n = s.readBytes a n := by
  simp only [State.readBytes, State.readByte, hdmem, hdraws]

theorem Form.AgreesOn.misused (h : f.AgreesOn s u) : f.misused u = f.misused s := by
  simp only [Form.misused, h.sha, h.rmd]

theorem Form.AgreesOn.allows (h : f.AgreesOn s u) (hl : f.LimitsSrc) :
    f.limit.allows u.params u.operands.srcLen.toNat = f.limit.allows s.params s.operands.srcLen.toNat := by
  cases hf : f.src with
  | false => rw [hl hf]; rfl
  | true => rw [h.params, (h.src hf).2]

theorem Form.AgreesOn.srcFits (h : f.AgreesOn s u) (hf : f.src = true) :
    inDmem u.params u.operands.srcAddr u.operands.srcLen.toNat =
      inDmem s.params s.operands.srcAddr s.operands.srcLen.toNat := by
  rw [h.params, (h.src hf).1, (h.src hf).2]

theorem Form.AgreesOn.auxFits (h : f.AgreesOn s u) (hf : f.aux = true) :
    inDmem u.params u.operands.auxAddr u.operands.auxLen.toNat =
      inDmem s.params s.operands.auxAddr s.operands.auxLen.toNat := by
  rw [h.params, (h.aux hf).1, (h.aux hf).2]

theorem Form.AgreesOn.inputs (h : f.AgreesOn s u) : u.inputs f = s.inputs f := by
  have hsrc : f.src = true → u.srcBytes = s.srcBytes := fun hf => by
    rw [State.srcBytes, State.srcBytes, (h.src hf).1, (h.src hf).2, State.readBytes_congr h.dmem h.draws]
  have haux : f.aux = true → u.auxBytes = s.auxBytes := fun hf => by
    rw [State.auxBytes, State.auxBytes, (h.aux hf).1, (h.aux hf).2, State.readBytes_congr h.dmem h.draws]
  exact congrArg₂ Prod.mk (if_ctx_congr Iff.rfl hsrc fun _ => rfl) (if_ctx_congr Iff.rfl haux fun _ => rfl)

theorem Form.AgreesOn.ready (h : f.AgreesOn s u) (hl : f.LimitsSrc) (hs : f.Ready s) : f.Ready u where
  phase := h.misused.trans hs.phase
  length := (h.allows hl).trans hs.length
  src hf := (h.srcFits hf).trans (hs.src hf)
  aux hf := (h.auxFits hf).trans (hs.aux hf)

theorem Form.AgreesOn.abort (h : f.AgreesOn s u) (code : ErrCode) : SameEffects (s.abort code) (u.abort code) where
  dmem := h.dmem
  sha := h.sha
  rmd := h.rmd
  resLen := rfl
  resFlags := rfl
  done := rfl
  errcode := rfl

theorem Form.AgreesOn.commit (h : f.AgreesOn s u) (r : Result) :
    SameEffects (s.commit f.dst r) (u.commit f.dst r) where
  dmem := by
    cases hd : f.dst with
    | false => exact h.dmem
    | true => simp only [State.commit_dmem, if_true, h.dmem, h.dst hd]
  sha := by rw [State.commit_sha, State.commit_sha, h.sha]
  rmd := by rw [State.commit_rmd, State.commit_rmd, h.rmd]
  resLen := rfl
  resFlags := rfl
  done := rfl
  errcode := rfl

/-- The frame takes the same way in both states: each check has the same answer, and what is computed is the same. -/
theorem Form.AgreesOn.execute (h : f.AgreesOn s u) (hl : f.LimitsSrc) :
    SameEffects (s.execute f compute) (u.execute f compute) := by
  rcases State.execute_cases s f compute with
    ⟨hm, he⟩ | ⟨hm, hlen, he⟩ | ⟨hm, hlen, hrange, he⟩ | ⟨hready, code, hc, he⟩ | ⟨hready, r, hc, hd, hout, he⟩ |
      ⟨hready, r, hc, hin, he⟩
  · rw [he, State.execute_misuse (h.misused.trans hm)]
    exact h.abort _
  · rw [he, State.execute_length (h.misused.trans hm) ((h.allows hl).trans hlen)]
    exact h.abort _
  · rw [he, State.execute_rangeIn (h.misused.trans hm) ((h.allows hl).trans hlen) (hrange.imp
      (fun ⟨hf, hs⟩ => ⟨hf, (h.srcFits hf).trans hs⟩) (fun ⟨hf, ha⟩ => ⟨hf, (h.auxFits hf).trans ha⟩))]
    exact h.abort _
  · rw [he, State.execute_ready (h.ready hl hready), h.inputs, hc]
    exact h.abort _
  · have houtside : inDmem u.params u.operands.dstAddr r.out.length = false := by rw [h.params, h.dst hd, hout]
    rw [he, State.execute_ready (h.ready hl hready), h.inputs, hc]
    simp only [hd, houtside, Bool.not_false, Bool.and_true, if_true]
    exact h.abort _
  · have hfits : (f.dst && !inDmem u.params u.operands.dstAddr r.out.length) = false := by
      cases hd : f.dst with
      | false => rfl
      | true => rw [h.params, h.dst hd, hin hd]; rfl
    rw [he, State.execute_ready (h.ready hl hready), h.inputs, hc]
    simp only [hfits, Bool.false_eq_true, if_false]
    exact h.commit r

end Sys2Proof.Machine
end

section
/-! The statements of 30_encoding.md. -/

namespace Sys2Proof.Machine

open Sys2Proof.Claims

/-- Settles O1: `decode_encode` one way, `encode_of_decode` the other. -/
theorem decodeEncodeBijection : Obligations.DecodeEncodeBijection :=
  ⟨fun i _ => decode_encode i, fun _ _ => encode_of_decode, fun _ _ => encode_injective⟩

/-- Settles O2: a word decodes exactly when it is legal, and the rows that match it are counted by
`matchingRows_length`. -/
theorem legalWordsAreTheTable : Obligations.LegalWordsAreTheTable := by
  intro v
  refine ⟨decode_ok_iff.trans legalWord_iff, ?_, ?_⟩
  · rw [decode_ok_iff, matchingRows_length]
    simp
  · rw [matchingRows_length]
    split
    · exact le_rfl
    · exact Nat.zero_le 1

/-- Settles O22: the two states agree on what the command's form names (`Form.AgreesOn`). -/
theorem commandsIgnoreUnnamedRegisters : Obligations.CommandsIgnoreUnnamedRegisters := by
  intro i s c st rl rf o hsrc haux hdst
  have hagree : (operandForm i).AgreesOn s
      { s with ctrl := c, status := st, resLen := rl, resFlags := rf, operands := o } :=
    { params := rfl, sha := rfl, rmd := rfl, dmem := rfl, draws := rfl
      src := fun h => hsrc (operandForm_src i ▸ h)
      aux := fun h => haux (operandForm_aux i ▸ h)
      dst := fun h => hdst (operandForm_dst i ▸ h) }
  obtain ⟨hdmem, hsha, hrmd, hlen, hflags, hdone, hcode⟩ :=
    hagree.execute (compute := computeOf i s) (operandForm_limitsSrc i)
  refine ⟨_, _, exec_eq i s, exec_eq i _, ?_⟩
  rw [computeOf_congr i hagree.sha hagree.rmd]
  exact ⟨hdmem, hsha, hrmd, hlen, hflags, hdone, hcode⟩

/-- Settles O3. -/
theorem sampleWordsDecode : Obligations.SampleWordsDecode := by
  unfold Obligations.SampleWordsDecode
  decide

end Sys2Proof.Machine
end

section
/-! SUPPORT. What a successful command changes and keeps (R58). -/

namespace Sys2Proof.Machine

open Sys2Proof.Claims

variable {i : Instr} {s t : State} {src aux : List Byte} {r : Result}

/-- A commit is what R58 says of the registers. -/
theorem State.commit_succeeded (s : State) (d : Bool) (r : Result) : Succeeded s (s.commit d r) where
  params := rfl
  ctrl := rfl
  operands := rfl
  hostQueue := rfl
  response := rfl
  draws := rfl
  done := rfl
  err := rfl
  errcode := rfl

theorem CommitsTo.succeeded (h : CommitsTo i s t r) : Succeeded s t := by
  rw [h.next]
  exact s.commit_succeeded _ r

/-- With or without a DST, DMEM changes by the output at DST_ADDR: a command without one has an empty output. -/
theorem CommitsTo.dmem (h : CommitsTo i s t r) : t.dmem = s.dmem.writeBytes s.operands.dstAddr.toNat r.out := by
  cases hd : writesDst i with
  | true => exact (h.wrote hd).2
  | false => simp [h.next, operandForm_dst, hd, computeOf_out_of_not_writesDst hd h.computed]

/-- Every successful command is its output written at DST_ADDR, with the flags it computed. -/
theorem CommitsTo.wrote_output (h : CommitsTo i s t r) : Wrote s t r.out r.flags :=
  { h.succeeded with
    resLen := by rw [h.next, State.commit_resLen]
    resFlags := h.resFlags
    written := fun k hk => by simp [h.dmem, Memory.read_writeBytes, hk]
    elsewhere := fun a ha => by rw [h.dmem, Memory.read_writeBytes, if_neg (by omega)] }

/-- A command with no DST leaves DMEM, not only its bytes, as it was. -/
theorem CommitsTo.dmem_of_not_writesDst (h : CommitsTo i s t r) (hd : writesDst i = false) : t.dmem = s.dmem := by
  rw [h.dmem, computeOf_out_of_not_writesDst hd h.computed, Memory.writeBytes_nil]

/-- A successful command with no DST writes nothing and has no flags. -/
theorem CommitsTo.wroteNothing (h : CommitsTo i s t r) (hd : writesDst i = false) : WroteNothing s t :=
  { h.succeeded with
    resLen := h.resLen_eq_zero hd
    resFlags := h.resFlags.trans <|
      computeOf_flags_of_not_import (by rintro rfl; cases hd) (by rintro rfl; cases hd) h.computed
    memory := fun a => by rw [h.dmem_of_not_writesDst hd] }

theorem Params.dmemSize_le {p : Params} (hp : p.wellFormed = true) : p.dmemSize ≤ 4096 := by
  simp only [Params.wellFormed, Bool.and_eq_true, decide_eq_true_eq] at hp
  omega

/-- An output fits in DMEM, so RES_LEN counts it without wrapping (R21). -/
theorem CommitsTo.resLen_toNat (h : CommitsTo i s t r) (hp : s.params.wellFormed = true) :
    t.resLen.toNat = r.out.length := by
  have hout := h.out_length_le
  have hsize := Params.dmemSize_le hp
  rw [h.wrote_output.resLen, BitVec.toNat_ofNat, Nat.mod_eq_of_lt (by omega)]

/-- Only the three streaming commands of an engine compute a context for it. -/
theorem computeOf_streams_eq_none (h : computeOf i s src aux = .ok r) :
    (i ≠ .sha256Init → i ≠ .sha256Update → i ≠ .sha256Final → r.sha = none) ∧
    (i ≠ .rmd160Init → i ≠ .rmd160Update → i ≠ .rmd160Final → r.rmd = none) := by
  cases i with
  | sha256Init | sha256Update | sha256Final | rmd160Init | rmd160Update | rmd160Final => cases h; simp
  | b58Dec | b58chkDec => rw [textResult_eq_ok h]; simp
  | derDec => rw [derResult_eq_ok h]; simp
  | _ => cases h; simp

/-- A successful command keeps each context that it is no streaming command of. -/
theorem CommitsTo.streams (h : CommitsTo i s t r) :
    (i ≠ .sha256Init → i ≠ .sha256Update → i ≠ .sha256Final → t.sha = s.sha) ∧
    (i ≠ .rmd160Init → i ≠ .rmd160Update → i ≠ .rmd160Final → t.rmd = s.rmd) := by
  obtain ⟨hsha, hrmd⟩ := computeOf_streams_eq_none h.computed
  rw [h.next, State.commit_sha, State.commit_rmd]
  exact ⟨fun h₁ h₂ h₃ => by rw [hsha h₁ h₂ h₃]; rfl, fun h₁ h₂ h₃ => by rw [hrmd h₁ h₂ h₃]; rfl⟩

/-- NOP has no check to fail (R46, R64). -/
theorem nop_commitsTo (s : State) : CommitsTo .nop s (s.commit false {}) {} where
  ready := { phase := rfl, length := rfl, src := nofun, aux := nofun }
  computed := rfl
  dst_fits := nofun
  next := rfl

end Sys2Proof.Machine
end

section
/-! SUPPORT. Which codes `Compute` raises (R124), and when the length check fails (R55). -/

namespace Sys2Proof.Machine

open Sys2Proof.Claims

variable {i : Instr} {s : State} {src aux : List Byte} {code : ErrCode}

theorem TextError.errCode_mem (e : TextError) : e.errCode ∈ [ErrCode.b58Char, .chkShort, .chkMismatch] := by
  cases e <;> decide

/-- `Decode` itself has one error: a byte that is no symbol (R97). -/
theorem base58Decode_error {x : List Byte} {e : TextError} (h : base58Decode x = .error e) : e = .b58Char := by
  unfold base58Decode at h
  split at h <;> cases h
  rfl

theorem textResult_eq_error {x : Except TextError (List Byte)} (h : textResult x = .error code) :
    ∃ e, x = .error e ∧ e.errCode = code := by
  cases x <;> cases h
  exact ⟨_, rfl, rfl⟩

theorem derResult_eq_error {x : Option (List Byte)} (h : derResult x = .error code) :
    x = none ∧ .derFormat = code := by
  cases x <;> cases h
  exact ⟨rfl, rfl⟩

/-- What `Compute` raises is a data error of the command's row (R124). -/
theorem computeOf_error_mem_dataErrors (h : computeOf i s src aux = .error code) : code ∈ dataErrors i := by
  cases i with
  | b58Dec =>
    obtain ⟨e, hx, rfl⟩ := textResult_eq_error h
    obtain rfl := base58Decode_error hx
    exact List.mem_singleton_self _
  | b58chkDec =>
    obtain ⟨e, -, rfl⟩ := textResult_eq_error h
    exact e.errCode_mem
  | derDec =>
    obtain ⟨-, rfl⟩ := derResult_eq_error h
    exact List.mem_singleton_self _
  | _ => cases h

/-- A command that can raise MISUSE has no length limit (R46, R54). -/
theorem limit_of_misused (h : (operandForm i).misused s = true) : (operandForm i).limit = .any := by
  cases i with
  | sha256Update | sha256Final | rmd160Update | rmd160Final => rfl
  | _ => cases h

/-- The limit column of R46 refuses exactly the cases of R55, row by row. -/
theorem limit_refuses_iff (i : Instr) (s : State) :
    (operandForm i).limit.allows s.params s.operands.srcLen.toNat = false ↔ LengthBad i s := by
  cases i <;> simp [operandForm, LengthLimit.allows, LengthBad]

theorem length_not_mem_dataErrors (i : Instr) : ErrCode.length ∉ dataErrors i := by
  cases i <;> simp [dataErrors]

/-- The frame ends with LENGTH exactly when the form's limit refuses SRC_LEN. -/
theorem execute_errcode_length_iff (i : Instr) (s : State) :
    (s.execute (operandForm i) (computeOf i s)).status.errcode = .length ↔
      (operandForm i).limit.allows s.params s.operands.srcLen.toNat = false := by
  rcases State.execute_cases s (operandForm i) (computeOf i s) with
    ⟨hm, he⟩ | ⟨-, hl, he⟩ | ⟨-, hl, -, he⟩ | ⟨hready, code, hc, he⟩ | ⟨hready, _, -, -, -, he⟩ |
      ⟨hready, _, -, -, he⟩
  · simp [he, limit_of_misused hm, LengthLimit.allows]
  · simp [he, hl]
  · simp [he, hl]
  · have hne : code ≠ .length := fun h => length_not_mem_dataErrors i (h ▸ computeOf_error_mem_dataErrors hc)
    simp [he, hready.length, hne]
  · simp [he, hready.length]
  · simp [he, hready.length]

end Sys2Proof.Machine
end

section
/-! The statements of 40_frame.md. -/

namespace Sys2Proof.Machine

open Sys2Proof.Claims

/-- Settles O17: a command that did not succeed is an abort (`exec_aborts_of_ne_ok`). -/
theorem failedCommandsChangeNothing : Obligations.FailedCommandsChangeNothing := by
  intro i s t h herr
  obtain ⟨code, -, rfl⟩ := exec_aborts_of_ne_ok h herr
  exact ⟨s.abort_failed code, rfl⟩

/-- Settles O18: a command that succeeded committed its output (`CommitsTo.wrote_output`), whose length is
RES_LEN (`CommitsTo.resLen_toNat`). -/
theorem committedCommandsFrame : Obligations.CommittedCommandsFrame := by
  intro i s t hp h hok
  obtain ⟨r, hr⟩ := exec_commits_of_ok h hok
  have hout := hr.wrote_output
  rw [hr.resLen_toNat hp]
  refine ⟨hr.succeeded, hout.elsewhere, fun a hlo hhi => ?_, fun hd => hr.dst_fits (operandForm_dst i ▸ hd),
    fun hd => ⟨hr.dmem_of_not_writesDst hd, hr.resLen_eq_zero hd⟩, hr.streams.1, hr.streams.2,
    exec_resFlags_of_not_import h⟩
  obtain ⟨k, rfl⟩ := Nat.exists_eq_add_of_le hlo
  rw [hout.written k (by omega)]
  rfl

/-- Settles O20. -/
theorem lengthLimits : Obligations.LengthLimits := fun i s =>
  ⟨_, exec_eq i s, (execute_errcode_length_iff i s).trans (limit_refuses_iff i s)⟩

/-- Settles O23: NOP is a commit of nothing (`nop_commitsTo`). -/
theorem nopCompletes : Obligations.NopCompletes := fun s =>
  ⟨_, exec_eq .nop s, (nop_commitsTo s).wroteNothing rfl, rfl, rfl⟩

end Sys2Proof.Machine
end

section
/-! SUPPORT. A command from its state (R54): which check fails it with which code, and what it needs to succeed. -/

namespace Sys2Proof.Machine

open Sys2Proof.Claims

variable {i : Instr} {s t : State} {r : Result} {code : ErrCode}

/-- R56 on unbounded integers. -/
theorem inDmem_iff {p : Params} {a : Word} {n : Nat} : inDmem p a n = true ↔ a.toNat + n ≤ p.dmemSize :=
  decide_eq_true_iff

theorem inDmem_eq_false_iff {p : Params} {a : Word} {n : Nat} :
    inDmem p a n = false ↔ ¬ a.toNat + n ≤ p.dmemSize :=
  decide_eq_false_iff_not

/-- A frame that aborts is a command that fails as R59 says. -/
theorem failsWith_of_execute (h : s.execute (operandForm i) (computeOf i s) = s.abort code) : FailsWith i s code :=
  ⟨s.abort code, (exec_eq i s).trans (congrArg _ h), s.abort_failed code⟩

theorem failsWith_misuse (h : (operandForm i).misused s = true) : FailsWith i s .misuse :=
  failsWith_of_execute (State.execute_misuse h)

/-- SRC outside DMEM, with the checks before it passed. -/
theorem failsWith_rangeIn_of_src (hm : (operandForm i).misused s = false)
    (hl : (operandForm i).limit.allows s.params s.operands.srcLen.toNat = true)
    (hsrc : (operandForm i).src = true) (h : ¬ SrcFits s) : FailsWith i s .rangeIn :=
  failsWith_of_execute (State.execute_rangeIn hm hl (.inl ⟨hsrc, inDmem_eq_false_iff.mpr h⟩))

/-- The DST check is made at the length of what was computed (R60). -/
theorem failsWith_rangeOut (hready : (operandForm i).Ready s)
    (hr : computeOf i s (s.inputs (operandForm i)).1 (s.inputs (operandForm i)).2 = .ok r)
    (hdst : (operandForm i).dst = true) (h : ¬ DstFits s r.out.length) : FailsWith i s .rangeOut := by
  apply failsWith_of_execute
  rw [State.execute_ready hready, hr]
  simp [hdst, inDmem_eq_false_iff.mpr h]

/-- With every check passed, the command's next state is its commit (R58). -/
theorem CommitsTo.exec (h : CommitsTo i s t r) : exec i s = .next t := by
  have hin : ((operandForm i).dst && !inDmem s.params s.operands.dstAddr r.out.length) = false := by
    cases hd : (operandForm i).dst with
    | false => rfl
    | true => rw [inDmem_iff.mpr (h.dst_fits hd)]; rfl
  rw [exec_eq, State.execute_ready h.ready, h.computed, h.next]
  simp [hin]

/-- A command whose form is SRC to DST with no limit, and that computes `f` of SRC alone. -/
theorem hashCommand_of_computeOf {f : List Byte → List Byte} {n : Nat}
    (hform : operandForm i = { src := true, dst := true })
    (hf : ∀ s src aux, computeOf i s src aux = .ok { out := f src }) (hlen : ∀ m, (f m).length = n) :
    HashCommand i f n := by
  intro s
  have hsrc : (operandForm i).src = true := by rw [hform]
  have hdst : (operandForm i).dst = true := by rw [hform]
  have hm : (operandForm i).misused s = false := by rw [hform]; rfl
  have hl : (operandForm i).limit.allows s.params s.operands.srcLen.toNat = true := by rw [hform]; rfl
  have hr : computeOf i s (s.inputs (operandForm i)).1 (s.inputs (operandForm i)).2 = .ok { out := f s.srcBytes } := by
    rw [hf, State.inputs, hform]; rfl
  have hready : SrcFits s → (operandForm i).Ready s := fun h =>
    { phase := hm, length := hl, src := fun _ => inDmem_iff.mpr h, aux := by rw [hform]; nofun }
  refine ⟨failsWith_rangeIn_of_src hm hl hsrc, fun h hd => ?_, fun h hd => ⟨hlen _, ?_⟩⟩
  · exact failsWith_rangeOut (hready h) hr hdst (by rwa [hlen])
  · have hc : CommitsTo i s (s.commit (operandForm i).dst { out := f s.srcBytes }) { out := f s.srcBytes } :=
      { ready := hready h, computed := hr, next := rfl, dst_fits := fun _ => by rw [hlen]; exact hd }
    exact ⟨_, hc.exec, hc.wrote_output, rfl, rfl⟩

end Sys2Proof.Machine
end

section
/-! SUPPORT. `Absorb` in pieces (R69, R72): the bit counter is set apart from the bytes, so that pieces add up. -/

namespace Sys2Proof.Machine

variable {α : Type} (f : α → List Byte → α)

/-- No byte of the loop of R69 reads the bit counter. -/
theorem HashCtx.foldl_absorbByte_set_bitlen (m : List Byte) (c : HashCtx α) (n : BitVec 64) :
    m.foldl (HashCtx.absorbByte f) { c with bitlen := n } =
      { m.foldl (HashCtx.absorbByte f) c with bitlen := n } := by
  induction m generalizing c with
  | nil => rfl
  | cons b m ih =>
    have hb : ({ c with bitlen := n } : HashCtx α).absorbByte f b = { c.absorbByte f b with bitlen := n } := by
      simp only [HashCtx.absorbByte]
      split <;> rfl
    rw [List.foldl_cons, hb, ih, List.foldl_cons]

/-- `Absorb` is its loop with the new bit count. -/
theorem HashCtx.absorb_eq (c : HashCtx α) (m : List Byte) :
    c.absorb f m =
      { m.foldl (HashCtx.absorbByte f) c with bitlen := c.bitlen + BitVec.ofNat 64 (8 * m.length) } :=
  HashCtx.foldl_absorbByte_set_bitlen f m c _

@[simp] theorem HashCtx.absorb_nil (c : HashCtx α) : c.absorb f [] = c := by
  simp [HashCtx.absorb]

/-- R72's law, for any compression function. -/
theorem HashCtx.absorb_absorb (c : HashCtx α) (a b : List Byte) :
    (c.absorb f a).absorb f b = c.absorb f (a ++ b) := by
  have hcount : c.bitlen + BitVec.ofNat 64 (8 * a.length) + BitVec.ofNat 64 (8 * b.length) =
      c.bitlen + BitVec.ofNat 64 (8 * (a ++ b).length) := by
    rw [BitVec.add_assoc, ← BitVec.ofNat_add, ← Nat.mul_add, List.length_append]
  rw [HashCtx.absorb_eq f _ b, HashCtx.absorb_bitlen, hcount, HashCtx.absorb_eq f c a,
    HashCtx.foldl_absorbByte_set_bitlen, HashCtx.absorb_eq, List.foldl_append]

theorem HashCtx.foldl_absorb (c : HashCtx α) (chunks : List (List Byte)) :
    chunks.foldl (HashCtx.absorb f) c = c.absorb f chunks.flatten := by
  induction chunks generalizing c with
  | nil => simp
  | cons m chunks ih => rw [List.foldl_cons, ih, HashCtx.absorb_absorb, List.flatten_cons]

end Sys2Proof.Machine
end

section
/-! SUPPORT. Streaming and padding as one fold over 64-byte blocks (R69, R70, R83, R84). -/

namespace Sys2Proof.Machine

/-- The whole 64-byte blocks of a byte string, in order; an incomplete last block is left out. -/
def blocks (x : List Byte) : List (List Byte) :=
  (List.range (x.length / 64)).map (fun i => (x.drop (64 * i)).take 64)

theorem blocks_of_length_eq {x : List Byte} (h : x.length = 64) : blocks x = [x] := by
  rw [blocks, h]
  exact congrArg (fun b => [b]) (List.take_of_length_le h.le)

theorem length_of_mem_blocks {x b : List Byte} (h : b ∈ blocks x) : b.length = 64 := by
  obtain ⟨k, hk, rfl⟩ := List.mem_map.mp h
  have hlt := List.mem_range.mp hk
  rw [List.length_take, List.length_drop]
  omega

/-- Where the first part ends on a block boundary, the blocks are those of the two parts. -/
theorem blocks_append {x : List Byte} (h : x.length % 64 = 0) (y : List Byte) :
    blocks (x ++ y) = blocks x ++ blocks y := by
  obtain ⟨n, hn⟩ : 64 ∣ x.length := Nat.dvd_of_mod_eq_zero h
  have hdiv : (x ++ y).length / 64 = n + y.length / 64 := by rw [List.length_append]; omega
  have hx : x.length / 64 = n := by omega
  simp only [blocks, hdiv, hx, List.range_add, List.map_append, List.map_map]
  congr 1
  · refine List.map_congr_left fun k hk => ?_
    have hlt := List.mem_range.mp hk
    rw [List.drop_append_of_le_length (by omega), List.take_append_of_le_length (by rw [List.length_drop]; omega)]
  · refine List.map_congr_left fun k _ => ?_
    rw [Function.comp_apply, Nat.mul_add, ← hn, List.drop_length_add_append]

variable {α : Type} {f : α → List Byte → α} {l : BitVec 64 → List Byte} {iv : α} {c : HashCtx α} {m : List Byte}

/-- `c` is what `Absorb` has made of the bytes `m` from the chaining value `iv`: the whole blocks of `m` are
compressed in order, and the rest is buffered. -/
structure HashCtx.Absorbed (f : α → List Byte → α) (iv : α) (m : List Byte) (c : HashCtx α) : Prop where
  buf_lt : c.buf.length < 64
  compressed : ∃ d, m = d ++ c.buf ∧ d.length % 64 = 0 ∧ c.H = (blocks d).foldl f iv

theorem HashCtx.Absorbed.init (f : α → List Byte → α) (iv : α) : (HashCtx.init iv).Absorbed f iv [] where
  buf_lt := Nat.zero_lt_succ _
  compressed := ⟨[], rfl, rfl, rfl⟩

theorem HashCtx.Absorbed.absorbByte (h : c.Absorbed f iv m) (b : Byte) :
    (c.absorbByte f b).Absorbed f iv (m ++ [b]) := by
  obtain ⟨hbuf, d, rfl, hd, hH⟩ := h
  by_cases hfull : (c.buf ++ [b]).length = 64
  · have hc : c.absorbByte f b = { c with H := f c.H (c.buf ++ [b]), buf := [] } := if_pos hfull
    rw [hc]
    refine ⟨Nat.zero_lt_succ _, d ++ (c.buf ++ [b]), by simp, by rw [List.length_append]; omega, ?_⟩
    rw [blocks_append hd, blocks_of_length_eq hfull, List.foldl_append, ← hH]
    rfl
  · have hc : c.absorbByte f b = { c with buf := c.buf ++ [b] } := if_neg hfull
    rw [hc]
    refine ⟨?_, d, List.append_assoc .., hd, hH⟩
    rw [List.length_append, List.length_singleton] at hfull ⊢
    omega

theorem HashCtx.Absorbed.foldl (h : c.Absorbed f iv m) (x : List Byte) :
    (x.foldl (HashCtx.absorbByte f) c).Absorbed f iv (m ++ x) := by
  induction x generalizing c m with
  | nil => simpa using h
  | cons b x ih => simpa using ih (h.absorbByte b)

/-- The bit counter is no part of what `Absorbed` says. -/
theorem HashCtx.Absorbed.absorb (h : c.Absorbed f iv m) (x : List Byte) : (c.absorb f x).Absorbed f iv (m ++ x) := by
  obtain ⟨hbuf, hcompressed⟩ := h.foldl x
  rw [HashCtx.absorb_eq]
  exact ⟨hbuf, hcompressed⟩

/-- R70's padding of an `n`-byte message before the length field: 0x80, and zeros up to eight bytes short of the
next block boundary. -/
def padding (n : Nat) : List Byte := [0x80] ++ List.replicate ((119 - n % 64) % 64) 0x00

theorem padding_length (n : Nat) : (padding n).length = 1 + (119 - n % 64) % 64 := by
  rw [padding, List.length_append, List.length_replicate, List.length_singleton]

/-- The padding depends on how many bytes stand in the last block. -/
theorem padding_add {n k : Nat} (h : k % 64 = 0) : padding (k + n) = padding n := by
  rw [padding, padding, Nat.add_mod, h, Nat.zero_add, Nat.mod_mod]

theorem length_fill_zeros {q : List Byte} {n : Nat} (h : q.length ≤ n) :
    (q ++ List.replicate (n - q.length) 0).length = n := by
  rw [List.length_append, List.length_replicate]
  omega

/-- `Final` compresses the one or two blocks of the padded buffer (R70). -/
theorem HashCtx.finish_H (hl : ∀ n, (l n).length = 8) (h : c.buf.length < 64) :
    (c.finish f l).H = (blocks (c.buf ++ padding c.buf.length ++ l c.bitlen)).foldl f c.H := by
  have hp : (c.buf ++ [0x80]).length = c.buf.length + 1 := List.length_append
  by_cases hflush : (c.buf ++ [0x80]).length > 56
  · have hzeros : (119 - c.buf.length % 64) % 64 = (64 - (c.buf ++ [0x80]).length) + 56 := by omega
    have hsplit : c.buf ++ padding c.buf.length ++ l c.bitlen =
        (c.buf ++ [0x80] ++ List.replicate (64 - (c.buf ++ [0x80]).length) 0) ++
          (List.replicate 56 0 ++ l c.bitlen) := by
      rw [padding, hzeros, List.replicate_add]
      simp only [List.append_assoc]
    have hfirst := length_fill_zeros (q := c.buf ++ [0x80]) (n := 64) (by omega)
    have hlast : (List.replicate 56 (0 : Byte) ++ l c.bitlen).length = 64 := by
      rw [List.length_append, List.length_replicate, hl]
    rw [hsplit, blocks_append (by rw [hfirst]), blocks_of_length_eq hfirst, blocks_of_length_eq hlast]
    simp only [HashCtx.finish, if_pos hflush]
    rfl
  · have hzeros : (119 - c.buf.length % 64) % 64 = 56 - (c.buf ++ [0x80]).length := by omega
    have hpadded : c.buf ++ padding c.buf.length ++ l c.bitlen =
        c.buf ++ [0x80] ++ List.replicate (56 - (c.buf ++ [0x80]).length) 0 ++ l c.bitlen := by
      rw [padding, hzeros, ← List.append_assoc]
    have hfill := length_fill_zeros (Nat.le_of_not_gt hflush)
    rw [hpadded, blocks_of_length_eq (by rw [List.length_append, hfill, hl])]
    simp only [HashCtx.finish, if_neg hflush]
    rfl

/-- After `m` is absorbed, `Final` has compressed the blocks of the padded message. -/
theorem HashCtx.Absorbed.finish_H (h : c.Absorbed f iv m) (hl : ∀ n, (l n).length = 8) :
    (c.finish f l).H = (blocks (m ++ padding m.length ++ l c.bitlen)).foldl f iv := by
  obtain ⟨hbuf, d, rfl, hd, hH⟩ := h
  have hsplit : d ++ c.buf ++ padding (d ++ c.buf).length ++ l c.bitlen =
      d ++ (c.buf ++ padding c.buf.length ++ l c.bitlen) := by
    rw [List.length_append, padding_add hd]
    simp only [List.append_assoc]
  rw [HashCtx.finish_H hl hbuf, hH, hsplit, blocks_append hd, List.foldl_append]

/-- Hashing from a fresh context: the blocks of `m ‖ padding ‖ length` (R69, R70). -/
theorem HashCtx.finish_absorb_init (hl : ∀ n, (l n).length = 8) (m : List Byte) :
    ((HashCtx.init iv).absorb f m).finish f l =
      { H := (blocks (m ++ padding m.length ++ l (BitVec.ofNat 64 (8 * m.length)))).foldl f iv
        buf := [], bitlen := BitVec.ofNat 64 (8 * m.length), phase := .finalized } := by
  have hbits : ((HashCtx.init iv).absorb f m).bitlen = BitVec.ofNat 64 (8 * m.length) := by
    rw [HashCtx.absorb_bitlen]; exact BitVec.zero_add _
  have hH := ((HashCtx.Absorbed.init f iv).absorb m).finish_H hl
  rw [hbits, List.nil_append] at hH
  rw [← hH, ← hbits]
  rfl

end Sys2Proof.Machine
end

section
/-! SUPPORT. The Hash-256 streaming commands as commits of the frame (R73–R75). -/

namespace Sys2Proof.Machine

open Sys2Proof.Claims

variable {i : Instr} {s : State}

/-- The phase check of R54, for the two commands that need the Hash-256 stream ACTIVE, fails. -/
theorem misused_of_sha_finalized (hi : (operandForm i).needsActive = some .sha) (hp : s.sha.phase = .finalized) :
    (operandForm i).misused s = true := by
  rw [Form.misused, hi, hp]
  rfl

/-- The same check passes. -/
theorem not_misused_of_sha_active (hi : (operandForm i).needsActive = some .sha) (hp : s.sha.phase = .active) :
    (operandForm i).misused s = false := by
  rw [Form.misused, hi, hp]
  rfl

theorem sha256Init_commitsTo (s : State) :
    CommitsTo .sha256Init s (s.commit false { sha := some init256 }) { sha := some init256 } where
  ready := { phase := rfl, length := rfl, src := nofun, aux := nofun }
  computed := rfl
  dst_fits := nofun
  next := rfl

theorem sha256Update_commitsTo (hp : s.sha.phase = .active) (hs : SrcFits s) :
    CommitsTo .sha256Update s (s.commit false { sha := some (absorb256 s.sha s.srcBytes) })
      { sha := some (absorb256 s.sha s.srcBytes) } where
  ready := { phase := not_misused_of_sha_active rfl hp, length := rfl, src := fun _ => inDmem_iff.mpr hs, aux := nofun }
  computed := rfl
  dst_fits := nofun
  next := rfl

theorem sha256Final_ready (hp : s.sha.phase = .active) : (operandForm .sha256Final).Ready s where
  phase := not_misused_of_sha_active rfl hp
  length := rfl
  src := nofun
  aux := nofun

theorem sha256Final_commitsTo (hp : s.sha.phase = .active) (hd : DstFits s 32) :
    CommitsTo .sha256Final s
      (s.commit true { out := digest256 (finish256 s.sha), sha := some (finish256 s.sha) })
      { out := digest256 (finish256 s.sha), sha := some (finish256 s.sha) } where
  ready := sha256Final_ready hp
  computed := rfl
  dst_fits := fun _ => by rw [digest256_length]; exact hd
  next := rfl

end Sys2Proof.Machine
end

section
/-! The statements of 41_sha256.md. -/

namespace Sys2Proof.Machine

open Sys2Proof.Claims

/-- Settles O49: `HashCtx.finish_absorb_init`, with `blocks` and `padding` written out. -/
theorem streamingHashesPaddedBlocks : Obligations.StreamingHashesPaddedBlocks := by
  intro α f lenField iv m hl
  have hpadded : m ++ [0x80] ++ List.replicate ((119 - m.length % 64) % 64) 0x00 = m ++ padding m.length :=
    List.append_assoc ..
  rw [hpadded]
  refine ⟨?_, by rw [HashCtx.finish_absorb_init hl]; rfl⟩
  rw [List.length_append, List.length_append, padding_length, hl]
  omega

/-- Settles O48: both functions are folded over the same blocks, each of 64 bytes (`length_of_mem_blocks`). -/
theorem blocksAreWhole : Obligations.BlocksAreWhole := by
  intro α f g lenField iv m hl hfg
  rw [HashCtx.finish_absorb_init hl, HashCtx.finish_absorb_init hl,
    List.foldl_ext f g iv fun h b hb => hfg h b (length_of_mem_blocks hb)]

/-- Settles O46: `HashCtx.absorb_absorb` for each engine; the digests are those of the same context. -/
theorem chunkingDoesNotMatter : Obligations.ChunkingDoesNotMatter :=
  ⟨HashCtx.absorb_absorb compress256, HashCtx.absorb_absorb compress160, HashCtx.foldl_absorb compress256,
    fun chunks => congrArg (fun c => digest256 (finish256 c)) (HashCtx.foldl_absorb compress256 init256 chunks),
    fun chunks => congrArg (fun c => digest160 (finish160 c)) (HashCtx.foldl_absorb compress160 init160 chunks),
    fun c m => by rw [absorb256, HashCtx.absorb_bitlen, BitVec.toNat_add, BitVec.toNat_ofNat, Nat.add_mod_mod]⟩

/-- Settles O24: SHA256_INIT has no check to fail (`sha256Init_commitsTo`). -/
theorem sha256InitCompletes : Obligations.Sha256InitCompletes := fun s =>
  have hc := sha256Init_commitsTo s
  ⟨_, hc.exec, hc.wroteNothing rfl, rfl, rfl⟩

/-- Settles O25: the checks of the frame one by one, and `sha256Update_commitsTo` past them. -/
theorem sha256UpdateAbsorbs : Obligations.Sha256UpdateAbsorbs := by
  refine ⟨fun s => ⟨fun hp => ?_, fun hp hs => ?_, fun hp hs => ?_⟩, HashCtx.absorb_nil compress256,
    by decide +kernel⟩
  · exact failsWith_misuse (misused_of_sha_finalized rfl hp)
  · exact failsWith_rangeIn_of_src (not_misused_of_sha_active rfl hp) rfl rfl hs
  · have hc := sha256Update_commitsTo hp hs
    exact ⟨_, hc.exec, hc.wroteNothing rfl, rfl, rfl⟩

/-- Settles O26: the DST check is made at the 32 bytes of the digest; past it, `sha256Final_commitsTo`. -/
theorem sha256FinalWritesDigest : Obligations.Sha256FinalWritesDigest := by
  refine ⟨fun s => ⟨fun hp => ?_, fun hp hd => ?_, fun hp hd => ?_⟩, by decide +kernel⟩
  · exact failsWith_misuse (misused_of_sha_finalized rfl hp)
  · exact failsWith_rangeOut (r := { out := digest256 (finish256 s.sha), sha := some (finish256 s.sha) })
      (sha256Final_ready hp) rfl rfl (by rwa [digest256_length])
  · have hc := sha256Final_commitsTo hp hd
    exact ⟨_, hc.exec, digest256_length _, hc.wrote_output, rfl, rfl, rfl, rfl, rfl⟩

/-- Settles O27: SHA256 is a command from SRC to DST with no limit (`hashCommand_of_computeOf`). -/
theorem sha256WritesDigest : Obligations.Sha256WritesDigest :=
  ⟨hashCommand_of_computeOf rfl (fun _ _ _ => rfl) sha256_length, by decide +kernel, by decide +kernel⟩

end Sys2Proof.Machine
end

section
/-! SUPPORT. The Hash-160 streaming commands in the frame (R86–R88): what they need to pass its checks. -/

namespace Sys2Proof.Machine

open Sys2Proof.Claims

variable {i : Instr} {s : State} {r : Result}

/-- A command that passes its checks, computes `r` and has room for its output ends in its commit (R54, R58). -/
theorem commitsTo_of_ready (hready : (operandForm i).Ready s)
    (hr : computeOf i s (s.inputs (operandForm i)).1 (s.inputs (operandForm i)).2 = .ok r)
    (hd : (operandForm i).dst = true → DstFits s r.out.length) :
    CommitsTo i s (s.commit (operandForm i).dst r) r where
  ready := hready
  computed := hr
  dst_fits := hd
  next := rfl

/-- The phase check of R54, for a command that needs the Hash-160 stream ACTIVE. -/
theorem misused_eq_of_needs_rmd (hi : (operandForm i).needsActive = some .rmd) :
    (operandForm i).misused s = (s.rmd.phase == .finalized) := by
  rw [Form.misused, hi]

theorem misused_of_rmd_finalized (hi : (operandForm i).needsActive = some .rmd) (hp : s.rmd.phase = .finalized) :
    (operandForm i).misused s = true := by
  rw [misused_eq_of_needs_rmd hi, hp]
  rfl

theorem not_misused_of_rmd_active (hi : (operandForm i).needsActive = some .rmd) (hp : s.rmd.phase = .active) :
    (operandForm i).misused s = false := by
  rw [misused_eq_of_needs_rmd hi, hp]
  rfl

/-- No check of the frame concerns INIT. -/
theorem rmd160Init_ready (s : State) : (operandForm .rmd160Init).Ready s where
  phase := rfl
  length := rfl
  src := nofun
  aux := nofun

theorem rmd160Update_ready (hp : s.rmd.phase = .active) (hs : SrcFits s) : (operandForm .rmd160Update).Ready s where
  phase := not_misused_of_rmd_active rfl hp
  length := rfl
  src := fun _ => inDmem_iff.mpr hs
  aux := nofun

theorem rmd160Final_ready (hp : s.rmd.phase = .active) : (operandForm .rmd160Final).Ready s where
  phase := not_misused_of_rmd_active rfl hp
  length := rfl
  src := nofun
  aux := nofun

/-- `Compute` of RMD160_FINAL reads the context alone (R88). -/
theorem computeOf_rmd160Final (s : State) (src aux : List Byte) :
    computeOf .rmd160Final s src aux = .ok { out := digest160 (finish160 s.rmd), rmd := some (finish160 s.rmd) } :=
  rfl

end Sys2Proof.Machine
end

section
/-! The statements of 42_ripemd160.md. -/

namespace Sys2Proof.Machine

open Sys2Proof.Claims

/-- Settles O29: RMD160_INIT passes every check (`rmd160Init_ready`) and has no output. -/
theorem rmd160InitCompletes : Obligations.Rmd160InitCompletes := fun s =>
  have hc := commitsTo_of_ready (rmd160Init_ready s) rfl nofun
  ⟨_, hc.exec, hc.wroteNothing rfl, rfl, rfl⟩

/-- Settles O30: each check of the frame that can fail, and the commit past them (`rmd160Update_ready`). -/
theorem rmd160UpdateAbsorbs : Obligations.Rmd160UpdateAbsorbs := by
  refine ⟨fun s => ⟨fun hp => ?misuse, fun hp hs => ?rangeIn, fun hp hs => ?absorbs⟩,
    HashCtx.absorb_nil compress160, by decide +kernel⟩
  case misuse => exact failsWith_misuse (misused_of_rmd_finalized rfl hp)
  case rangeIn => exact failsWith_rangeIn_of_src (not_misused_of_rmd_active rfl hp) rfl rfl hs
  case absorbs =>
    have hc := commitsTo_of_ready (rmd160Update_ready hp hs) rfl nofun
    exact ⟨_, hc.exec, hc.wroteNothing rfl, rfl, rfl⟩

/-- Settles O31: with the phase check passed, DST is checked at the 20 bytes of the digest (`digest160_length`),
and what `Final` does to the context is `HashCtx.finish_phase`, `finish_buf` and `finish_bitlen`. -/
theorem rmd160FinalWritesDigest : Obligations.Rmd160FinalWritesDigest := by
  refine ⟨fun s => ⟨fun hp => ?misuse, fun hp hd => ?rangeOut, fun hp hd => ?writes⟩,
    by decide +kernel, by decide +kernel⟩
  case misuse => exact failsWith_misuse (misused_of_rmd_finalized rfl hp)
  case rangeOut =>
    exact failsWith_rangeOut (rmd160Final_ready hp) (computeOf_rmd160Final s _ _) rfl (by rwa [digest160_length])
  case writes =>
    have hc := commitsTo_of_ready (rmd160Final_ready hp) (computeOf_rmd160Final s _ _)
      fun _ => by rwa [digest160_length]
    exact ⟨_, hc.exec, digest160_length _, hc.wrote_output, rfl, rfl, HashCtx.finish_phase .., HashCtx.finish_buf ..,
      HashCtx.finish_bitlen ..⟩

/-- Settles O32: RMD160 is a command from SRC to DST with no limit (`hashCommand_of_computeOf`). -/
theorem rmd160WritesDigest : Obligations.Rmd160WritesDigest :=
  ⟨hashCommand_of_computeOf rfl (fun _ _ _ => rfl) rmd160_length, by decide +kernel, by decide +kernel⟩

end Sys2Proof.Machine
end

section
/-! SUPPORT. The HMAC key (R92), and the one command that reads two regions (R93). -/

namespace Sys2Proof.Machine

open Sys2Proof.Claims

variable {key : List Byte} {i : Instr} {s : State}

/-- A key of at most 64 bytes is not hashed. -/
theorem hmacKey_of_le (h : key.length ≤ 64) : hmacKey key = key ++ List.replicate (64 - key.length) 0 := by
  rw [hmacKey, if_neg (Nat.not_lt.mpr h)]

/-- A longer key is hashed first, so that its 32 bytes of digest are filled up. -/
theorem hmacKey_of_gt (h : key.length > 64) : hmacKey key = sha256 key ++ List.replicate 32 0 := by
  rw [hmacKey, if_pos h, sha256_length]

@[simp] theorem hmacKey_length (key : List Byte) : (hmacKey key).length = 64 := by
  obtain h | h := Nat.lt_or_ge 64 key.length
  · rw [hmacKey_of_gt h, List.length_append, sha256_length, List.length_replicate]
  · rw [hmacKey_of_le h, length_fill_zeros h]

/-- The digest of a long key is short, so it fills up to the key it came from. -/
theorem hmacKey_sha256 (h : key.length > 64) : hmacKey (sha256 key) = hmacKey key := by
  have hle : (sha256 key).length ≤ 64 := by rw [sha256_length]; decide
  rw [hmacKey_of_le hle, hmacKey_of_gt h, sha256_length]

/-- `hmac256` reads its key through `hmacKey` alone. -/
theorem hmac256_congr_key {key' : List Byte} (h : hmacKey key = hmacKey key') (data : List Byte) :
    hmac256 key data = hmac256 key' data := by
  rw [hmac256, hmac256, h]

@[simp] theorem hmac256_length (key data : List Byte) : (hmac256 key data).length = 32 := sha256_length _

/-- AUX outside DMEM, with the phase and length checks passed. -/
theorem failsWith_rangeIn_of_aux (hm : (operandForm i).misused s = false)
    (hl : (operandForm i).limit.allows s.params s.operands.srcLen.toNat = true)
    (haux : (operandForm i).aux = true) (h : ¬ AuxFits s) : FailsWith i s .rangeIn :=
  failsWith_of_execute (State.execute_rangeIn hm hl (.inr ⟨haux, inDmem_eq_false_iff.mpr h⟩))

theorem hmacSha256_ready (hs : SrcFits s) (ha : AuxFits s) : (operandForm .hmacSha256).Ready s where
  phase := rfl
  length := rfl
  src := fun _ => inDmem_iff.mpr hs
  aux := fun _ => inDmem_iff.mpr ha

/-- `Compute` of HMAC_SHA256: SRC is the data and AUX the key (R93). -/
theorem computeOf_hmacSha256 (s : State) (data key : List Byte) :
    computeOf .hmacSha256 s data key = .ok { out := hmac256 key data } :=
  rfl

end Sys2Proof.Machine
end

section
/-! The statements of 43_composite.md. -/

namespace Sys2Proof.Machine

open Sys2Proof.Claims

/-- Settles O28: SHA256D is a command from SRC to DST with no limit (`hashCommand_of_computeOf`). -/
theorem sha256dWritesDigest : Obligations.Sha256dWritesDigest :=
  ⟨hashCommand_of_computeOf rfl (fun _ _ _ => rfl) (fun m => sha256_length (sha256 m)), by decide +kernel,
    by decide +kernel⟩

/-- Settles O33: HASH160 is a command from SRC to DST with no limit (`hashCommand_of_computeOf`). -/
theorem hash160WritesDigest : Obligations.Hash160WritesDigest :=
  ⟨hashCommand_of_computeOf rfl (fun _ _ _ => rfl) (fun m => rmd160_length (sha256 m)), by decide +kernel,
    by decide +kernel⟩

/-- Settles O34: the region checks of the frame one by one, and the commit past them (`hmacSha256_ready`); the
64-byte key is `hmacKey`. -/
theorem hmacWritesDigest : Obligations.HmacWritesDigest := by
  refine ⟨fun s => ⟨?rangeIn, fun hs ha hd => ?rangeOut, fun hs ha hd => ⟨hmac256_length _ _, ?writes⟩⟩,
    fun key data => ⟨hmacKey key, hmacKey_length key, hmacKey_of_le, hmacKey_of_gt, rfl⟩,
    fun key data h => (hmac256_congr_key (hmacKey_sha256 h) data).symm, by decide +kernel⟩
  case rangeIn =>
    rintro (hs | ha)
    · exact failsWith_rangeIn_of_src rfl rfl rfl hs
    · exact failsWith_rangeIn_of_aux rfl rfl rfl ha
  case rangeOut =>
    exact failsWith_rangeOut (hmacSha256_ready hs ha) (computeOf_hmacSha256 s _ _) rfl (by rwa [hmac256_length])
  case writes =>
    have hc := commitsTo_of_ready (hmacSha256_ready hs ha) (computeOf_hmacSha256 s _ _)
      fun _ => by rwa [hmac256_length]
    exact ⟨_, hc.exec, hc.wrote_output, rfl, rfl⟩

end Sys2Proof.Machine
end

section
/-! SUPPORT. The Base58 codec (R96, R97): which texts decode, what a decoded sequence is made of, and how many
bytes or symbols come out (R99). -/

namespace Sys2Proof.Machine

variable {t b : List Byte}

/-! ### Which texts decode -/

/-- `Decode` fails on a text with a byte that is no symbol (R97). -/
theorem base58Decode_of_idx_eq_none (h : ∃ c ∈ t, idx c = none) : base58Decode t = .error .b58Char := by
  obtain ⟨c, hc, hi⟩ := h
  exact if_pos (List.any_eq_true.mpr ⟨c, hc, by rw [hi]; rfl⟩)

/-- `Decode` of a text of symbols: its leading '1' symbols as zero bytes, and its number. -/
theorem base58Decode_of_symbols (h : ∀ c ∈ t, idx c ≠ none) :
    base58Decode t = .ok (List.replicate (leadingCount (sym 0) t) 0x00 ++
      minBe (base58Number (t.drop (leadingCount (sym 0) t)))) :=
  if_neg (by simpa using h)

/-- A text decodes exactly when every byte of it is a symbol (R97). -/
theorem exists_base58Decode_iff : (∃ b, base58Decode t = .ok b) ↔ ∀ c ∈ t, idx c ≠ none :=
  ⟨fun ⟨_, hb⟩ => idx_ne_none_of_base58Decode hb, fun h => ⟨_, base58Decode_of_symbols h⟩⟩

/-- What a decoded sequence is made of. -/
theorem eq_of_base58Decode (h : base58Decode t = .ok b) :
    b = List.replicate (leadingCount (sym 0) t) 0x00 ++
      minBe (base58Number (t.drop (leadingCount (sym 0) t))) := by
  rw [base58Decode_of_symbols (idx_ne_none_of_base58Decode h)] at h
  exact (Except.ok.inj h).symm

/-- `Encode` and `Decode` are inverse: a sequence has the text that decodes to it (R100). -/
theorem base58Encode_eq_iff : base58Encode b = t ↔ base58Decode t = .ok b :=
  ⟨fun h => h ▸ base58Decode_base58Encode b, base58Encode_of_base58Decode⟩

/-! ### Leading zeros -/

/-- `min_be` writes no leading zero byte, not even for 0 (R9). -/
theorem minBe_head_ne_zero (n : Nat) : (minBe n).head? ≠ some 0 := by
  obtain rfl | h := Nat.eq_zero_or_pos n
  · simp
  · exact minBe_head n h.ne'

/-- Decoding keeps the count: leading '1' symbols are leading zero bytes (R97). -/
theorem leadingCount_of_base58Decode (h : base58Decode t = .ok b) :
    leadingCount 0x00 b = leadingCount (sym 0) t := by
  rw [eq_of_base58Decode h]
  exact leadingCount_replicate_append (minBe_head_ne_zero _) _

/-- Encoding keeps the count (R96, R100). -/
theorem leadingCount_base58Encode (x : List Byte) :
    leadingCount (sym 0) (base58Encode x) = leadingCount 0x00 x :=
  (leadingCount_of_base58Decode (base58Decode_base58Encode x)).symm

/-! ### Numbers and their digits -/

theorem symbolDigit_lt (c : Byte) : symbolDigit c < 58 := by
  by_cases h : idx c = none
  · simp [symbolDigit, h]
  · exact (symbolDigit_spec h).1

/-- `L` symbols are a number of at most `L` digits. -/
theorem base58Number_lt (t : List Byte) : base58Number t < 58 ^ t.length := by
  have hlt : ∀ d ∈ (t.map symbolDigit).reverse, d < 58 := by simpa using fun c _ => symbolDigit_lt c
  simpa [base58Number_eq] using Nat.ofDigits_lt_base_pow_length (by decide) hlt

/-- `n` bytes are a number of at most `n` base-256 digits (R9). -/
theorem intBe_lt (b : List Byte) : intBe b < 256 ^ b.length := by
  have hlt : ∀ d ∈ (b.map BitVec.toNat).reverse, d < 256 := by simpa using fun x _ => BitVec.isLt x
  simpa [intBe_eq] using Nat.ofDigits_lt_base_pow_length (by decide) hlt

/-- A number below `base ^ w` has at most `w` digits. -/
theorem length_digitsOf_le {base n w : Nat} (hb : 1 < base) (h : n < base ^ w) : (digitsOf base n).length ≤ w := by
  rw [digitsOf_eq hb, List.length_reverse]
  exact (Nat.digits_length_le_iff hb n).mpr h

theorem length_minBe_le {n w : Nat} (h : n < 256 ^ w) : (minBe n).length ≤ w := by
  rw [minBe, List.length_map]
  exact length_digitsOf_le (by decide) h

/-! ### How many digits a change of base needs (R98, R99) -/

/-- Where `p` digits do for `q`, so does any rate of at least `p / q`, in thousandths and rounded up. -/
theorem pow_le_pow_ceilMilli {base base' p q num : Nat} (hb : 0 < base') (hq : q ≠ 0) (h : base ^ q ≤ base' ^ p)
    (hrate : p * 1000 ≤ num * q) (n : Nat) : base ^ n ≤ base' ^ ceilMilli num n := by
  have hceil : num * n ≤ ceilMilli num n * 1000 := by unfold ceilMilli; omega
  have hexp : p * n ≤ ceilMilli num n * q := by
    refine Nat.le_of_mul_le_mul_right (c := 1000) ?_ (by decide)
    calc p * n * 1000 = p * 1000 * n := Nat.mul_right_comm ..
      _ ≤ num * q * n := Nat.mul_le_mul_right n hrate
      _ = num * n * q := Nat.mul_right_comm ..
      _ ≤ ceilMilli num n * 1000 * q := Nat.mul_le_mul_right q hceil
      _ = ceilMilli num n * q * 1000 := Nat.mul_right_comm ..
  refine (Nat.pow_le_pow_iff_left hq).mp ?_
  calc (base ^ n) ^ q = (base ^ q) ^ n := Nat.pow_right_comm ..
    _ ≤ (base' ^ p) ^ n := Nat.pow_le_pow_left h n
    _ = base' ^ (p * n) := (Nat.pow_mul ..).symm
    _ ≤ base' ^ (ceilMilli num n * q) := Nat.pow_le_pow_right hb hexp
    _ = (base' ^ ceilMilli num n) ^ q := Nat.pow_mul ..

/-- 0.733 bytes a symbol are enough: log₂₅₆ 58 ≤ 52/71 ≤ 0.733 (R98). -/
theorem pow_58_le (n : Nat) : 58 ^ n ≤ 256 ^ ceilMilli 733 n :=
  pow_le_pow_ceilMilli (p := 52) (q := 71) (by decide) (by decide) (by decide) (by decide) n

/-- 1.366 symbols a byte are enough: log₅₈ 256 ≤ 56/41 ≤ 1.366 (R98). -/
theorem pow_256_le (n : Nat) : 256 ^ n ≤ 58 ^ ceilMilli 1366 n :=
  pow_le_pow_ceilMilli (p := 56) (q := 41) (by decide) (by decide) (by decide) (by decide) n

/-- `Encode` is within its rate past the leading zeros (R99). -/
theorem length_base58Encode_le (b : List Byte) : (base58Encode b).length ≤
    leadingCount 0x00 b + ceilMilli 1366 (b.length - leadingCount 0x00 b) := by
  have hdigits := length_digitsOf_le (by decide)
    ((intBe_lt (b.drop (leadingCount 0x00 b))).trans_le (pow_256_le _))
  rw [List.length_drop] at hdigits
  simpa [base58Encode] using hdigits

/-- `Decode` gives no more bytes than it reads symbols (R99). -/
theorem length_le_of_base58Decode (h : base58Decode t = .ok b) : b.length ≤ t.length := by
  have ht := congrArg List.length (replicate_leadingCount_append_drop (sym 0) t)
  have hbytes := length_minBe_le ((base58Number_lt (t.drop (leadingCount (sym 0) t))).trans_le
    (Nat.pow_le_pow_left (by decide : 58 ≤ 256) _))
  rw [eq_of_base58Decode h]
  simp only [List.length_append, List.length_replicate] at ht ⊢
  omega

end Sys2Proof.Machine
end

section
/-! SUPPORT. The fixed-width buffers of R98: a buffer of `w` digits holds its number modulo `base ^ w`, and all
of it while the number fits. -/

namespace Sys2Proof.Machine

variable {base w n : Nat} {buf : List Nat}

/-- The buffer holds `n`, up to what is lost at the top. -/
structure BufferHolds (base w : Nat) (buf : List Nat) (n : Nat) : Prop where
  length : buf.length = w
  digit_lt : ∀ d ∈ buf, d < base
  value : Nat.ofDigits base buf.reverse = n % base ^ w

/-- The new digits and the carry out of the top of one step of R98. -/
def mulAddCarry (base mul : Nat) (buf : List Nat) (d : Nat) : List Nat × Nat :=
  buf.foldr (fun x st => ((x * mul + st.2) % base :: st.1, (x * mul + st.2) / base)) ([], d)

theorem bufferMulAdd_eq (base mul : Nat) (buf : List Nat) (d : Nat) :
    bufferMulAdd base mul buf d = (mulAddCarry base mul buf d).1 := rfl

theorem mulAddCarry_cons (base mul x : Nat) (buf : List Nat) (d : Nat) :
    mulAddCarry base mul (x :: buf) d =
      ((x * mul + (mulAddCarry base mul buf d).2) % base :: (mulAddCarry base mul buf d).1,
        (x * mul + (mulAddCarry base mul buf d).2) / base) := rfl

theorem length_mulAddCarry (base mul : Nat) (buf : List Nat) (d : Nat) :
    (mulAddCarry base mul buf d).1.length = buf.length := by
  induction buf with
  | nil => rfl
  | cons x buf ih => rw [mulAddCarry_cons, List.length_cons, List.length_cons, ih]

theorem mulAddCarry_digit_lt (hb : 0 < base) (mul : Nat) (buf : List Nat) (d : Nat) :
    ∀ y ∈ (mulAddCarry base mul buf d).1, y < base := by
  induction buf with
  | nil => nofun
  | cons x buf ih =>
    rw [mulAddCarry_cons]
    exact List.forall_mem_cons.mpr ⟨Nat.mod_lt _ hb, ih⟩

/-- The most significant digit's part of a value. -/
theorem ofDigits_reverse_cons (base x : Nat) (ds : List Nat) :
    Nat.ofDigits base (x :: ds).reverse = Nat.ofDigits base ds.reverse + base ^ ds.length * x := by
  rw [List.reverse_cons, Nat.ofDigits_append, List.length_reverse, Nat.ofDigits_singleton]

/-- With the carry kept, the step is multiplication and addition. -/
theorem mulAddCarry_value (base mul : Nat) (buf : List Nat) (d : Nat) :
    Nat.ofDigits base (mulAddCarry base mul buf d).1.reverse + base ^ buf.length * (mulAddCarry base mul buf d).2 =
      Nat.ofDigits base buf.reverse * mul + d := by
  induction buf with
  | nil => simp [mulAddCarry]
  | cons x buf ih =>
    rw [mulAddCarry_cons, ofDigits_reverse_cons, ofDigits_reverse_cons, length_mulAddCarry, List.length_cons,
      pow_succ]
    set low := mulAddCarry base mul buf d
    calc _ = Nat.ofDigits base low.1.reverse +
          base ^ buf.length * ((x * mul + low.2) % base + base * ((x * mul + low.2) / base)) := by ring
      _ = Nat.ofDigits base low.1.reverse + base ^ buf.length * low.2 + base ^ buf.length * (x * mul) := by
          rw [Nat.mod_add_div]; ring
      _ = _ := by rw [ih]; ring

/-- A cleared buffer holds 0. -/
theorem BufferHolds.zero (hb : 0 < base) (w : Nat) : BufferHolds base w (List.replicate w 0) 0 where
  length := List.length_replicate
  digit_lt := fun d hd => by rwa [(List.mem_replicate.mp hd).2]
  value := by rw [List.reverse_replicate, Nat.ofDigits_replicate_zero, Nat.zero_mod]

/-- A step of R98 multiplies and adds: what is carried out of the top is a multiple of `base ^ w`. -/
theorem BufferHolds.mulAdd (hb : 1 < base) (h : BufferHolds base w buf n) (mul d : Nat) :
    BufferHolds base w (bufferMulAdd base mul buf d) (n * mul + d) := by
  have hlen := (length_mulAddCarry base mul buf d).trans h.length
  have hdigit := mulAddCarry_digit_lt (Nat.zero_lt_of_lt hb) mul buf d
  have hval := mulAddCarry_value base mul buf d
  have hlt : Nat.ofDigits base (mulAddCarry base mul buf d).1.reverse < base ^ w := by
    rw [← hlen, ← List.length_reverse]
    exact Nat.ofDigits_lt_base_pow_length hb fun y hy => hdigit y (List.mem_reverse.mp hy)
  rw [bufferMulAdd_eq]
  refine ⟨hlen, hdigit, ?_⟩
  rw [h.length, h.value] at hval
  calc Nat.ofDigits base (mulAddCarry base mul buf d).1.reverse
      = Nat.ofDigits base (mulAddCarry base mul buf d).1.reverse % base ^ w := (Nat.mod_eq_of_lt hlt).symm
    _ = (n % base ^ w * mul + d) % base ^ w := by rw [← hval, Nat.add_mul_mod_self_left]
    _ = (n * mul + d) % base ^ w := by rw [Nat.add_mod, Nat.mod_mul_mod, ← Nat.add_mod]

/-- The loop of R98 on a buffer accumulates what the exact loop does. -/
theorem BufferHolds.foldl {α : Type} (hb : 1 < base) (mul : Nat) (digit : α → Nat) (xs : List α)
    (h : BufferHolds base w buf n) :
    BufferHolds base w (xs.foldl (fun buf x => bufferMulAdd base mul buf (digit x)) buf)
      (xs.foldl (fun n x => n * mul + digit x) n) := by
  induction xs generalizing buf n with
  | nil => exact h
  | cons x xs ih => exact ih (h.mulAdd hb mul (digit x))

/-- Leading zero digits do not count. -/
theorem ofDigits_dropWhile_zero (base : Nat) (ds : List Nat) :
    Nat.ofDigits base (ds.dropWhile (· == 0)).reverse = Nat.ofDigits base ds.reverse := by
  induction ds with
  | nil => rfl
  | cons d ds ih =>
    obtain rfl | hd := Nat.eq_zero_or_pos d
    · rw [List.dropWhile_cons_of_pos rfl, ih, ofDigits_reverse_cons, Nat.mul_zero, Nat.add_zero]
    · rw [List.dropWhile_cons_of_neg (by simpa using hd.ne')]

/-- With its leading zeros stripped, a buffer that holds a number that fits is the number's digits. -/
theorem BufferHolds.dropWhile_zero (hb : 1 < base) (h : BufferHolds base w buf n) (hn : n < base ^ w) :
    buf.dropWhile (· == 0) = digitsOf base n := by
  have hlt : ∀ d ∈ buf.dropWhile (· == 0), d < base := fun d hd =>
    h.digit_lt d ((List.dropWhile_suffix _).subset hd)
  have hhead : (buf.dropWhile (· == 0)).head? ≠ some 0 := fun h0 => by
    simpa [h0] using List.head?_dropWhile_not (· == 0) buf
  rw [← digitsOf_ofDigits hb hlt hhead, ofDigits_dropWhile_zero, h.value, Nat.mod_eq_of_lt hn]

/-- The buffered loop, from a cleared buffer wide enough for its number. -/
theorem dropWhile_zero_foldl_bufferMulAdd {α : Type} (hb : 1 < base) (mul : Nat) (digit : α → Nat) (xs : List α)
    (hn : xs.foldl (fun n x => n * mul + digit x) 0 < base ^ w) :
    (xs.foldl (fun buf x => bufferMulAdd base mul buf (digit x)) (List.replicate w 0)).dropWhile (· == 0) =
      digitsOf base (xs.foldl (fun n x => n * mul + digit x) 0) :=
  ((BufferHolds.zero (Nat.zero_lt_of_lt hb) w).foldl hb mul digit xs).dropWhile_zero hb hn

/-- The decoder's buffer is wide enough for every text (R98). -/
theorem base58Number_lt_buffer (t : List Byte) : base58Number t < 256 ^ (ceilMilli 733 t.length + 1) :=
  calc base58Number t < 58 ^ t.length := base58Number_lt t
    _ ≤ 256 ^ ceilMilli 733 t.length := pow_58_le _
    _ ≤ 256 ^ (ceilMilli 733 t.length + 1) := Nat.pow_le_pow_right (by decide) (Nat.le_succ _)

/-- The encoder's buffer is wide enough for every byte sequence (R98). -/
theorem intBe_lt_buffer (b : List Byte) : intBe b < 58 ^ (ceilMilli 1366 b.length + 1) :=
  calc intBe b < 256 ^ b.length := intBe_lt b
    _ ≤ 58 ^ ceilMilli 1366 b.length := pow_256_le _
    _ ≤ 58 ^ (ceilMilli 1366 b.length + 1) := Nat.pow_le_pow_right (by decide) (Nat.le_succ _)

end Sys2Proof.Machine
end

section
/-! SUPPORT. A command from SRC to DST under a length limit, in the frame (R54). -/

namespace Sys2Proof.Machine

open Sys2Proof.Claims

variable {i : Instr} {limit : State → Prop}

/-- A command whose form is SRC to DST with a length limit, and that computes `f` of SRC alone. -/
theorem decodeCommand_of_computeOf {l : LengthLimit} {f : List Byte → Except ErrCode (List Byte)}
    (hform : operandForm i = { limit := l, src := true, dst := true })
    (hlimit : ∀ s : State, l.allows s.params s.operands.srcLen.toNat = true ↔ limit s)
    (hf : ∀ s src aux, computeOf i s src aux = (f src).map fun b => { out := b }) : DecodeCommand i limit f := by
  intro s
  have hsrc : (operandForm i).src = true := by rw [hform]
  have hdst : (operandForm i).dst = true := by rw [hform]
  have hm : (operandForm i).misused s = false := by rw [hform]; rfl
  have hl : (operandForm i).limit.allows s.params s.operands.srcLen.toNat = true ↔ limit s := by
    rw [hform]; exact hlimit s
  have hr : computeOf i s (s.inputs (operandForm i)).1 (s.inputs (operandForm i)).2 =
      (f s.srcBytes).map fun b => { out := b } := by
    rw [hf, State.inputs, hform]; rfl
  have hready (h : limit s) (hs : SrcFits s) : (operandForm i).Ready s :=
    { phase := hm, length := hl.mpr h, src := fun _ => inDmem_iff.mpr hs, aux := by rw [hform]; nofun }
  refine ⟨fun h => ?length, fun h hs => ?rangeIn, fun e h hs he => ?data, fun b h hs hb hd => ?rangeOut,
    fun b h hs hb hd => ?writes⟩
  case length => exact failsWith_of_execute (State.execute_length hm (Bool.not_eq_true _ ▸ mt hl.mp h))
  case rangeIn => exact failsWith_rangeIn_of_src hm (hl.mpr h) hsrc hs
  case data =>
    apply failsWith_of_execute
    rw [State.execute_ready (hready h hs), hr, he]
    rfl
  case rangeOut =>
    rw [hb] at hr
    exact failsWith_rangeOut (hready h hs) hr hdst hd
  case writes =>
    rw [hb] at hr
    have hc := commitsTo_of_ready (hready h hs) hr fun _ => hd
    exact ⟨_, hc.exec, hc.wrote_output, rfl, rfl⟩

/-- A command that never fails with a data error is one that writes `f src`. -/
theorem encodeCommand_of_decodeCommand {f : List Byte → List Byte}
    (h : DecodeCommand i limit fun b => .ok (f b)) : EncodeCommand i limit f := fun s =>
  have ⟨hlength, hrangeIn, _, hrangeOut, hwrites⟩ := h s
  ⟨hlength, hrangeIn, fun hl hs => hrangeOut _ hl hs rfl, fun hl hs => hwrites _ hl hs rfl⟩

/-- `Compute` of a text decoder, with its codes (R105, R108). -/
theorem textResult_eq_map (f : List Byte → Except TextError (List Byte)) (t : List Byte) :
    textResult (f t) = (withCodes f t).map fun b => { out := b } := by
  rw [withCodes]
  cases f t <;> rfl

/-- The limit column's `B58_MAX` (R55). -/
theorem allows_b58Max_iff (s : State) : LengthLimit.b58Max.allows s.params s.operands.srcLen.toNat = true ↔
    s.operands.srcLen.toNat ≤ s.params.b58Max :=
  decide_eq_true_iff

/-- The limit column's `B58_MAX` − 4, over the integers (R55). -/
theorem allows_b58MaxLess4_iff (s : State) :
    LengthLimit.b58MaxLess4.allows s.params s.operands.srcLen.toNat = true ↔
      s.operands.srcLen.toNat + 4 ≤ s.params.b58Max :=
  decide_eq_true_iff

end Sys2Proof.Machine
end

section
/-! The statements of 44_base58.md. -/

namespace Sys2Proof.Machine

open Sys2Proof.Claims

/-- Settles O50: `base58Encode_eq_iff`, with `exists_base58Decode_iff` for the texts of symbols. -/
theorem base58RoundTrip : Obligations.Base58RoundTrip := by
  refine ⟨base58Decode_base58Encode, fun t => ?_, fun t => ?_, leadingCount_base58Encode⟩
  · simp only [base58Encode_eq_iff, and_self]
    exact exists_base58Decode_iff
  · simp only [base58Encode_eq_iff]
    exact exists_base58Decode_iff

/-- Settles O51: each buffer is wide enough for its number (`base58Number_lt_buffer`, `intBe_lt_buffer`), so
stripped of its zeros it is the number's digits (`dropWhile_zero_foldl_bufferMulAdd`). -/
theorem base58BuffersAgree : Obligations.Base58BuffersAgree := by
  refine ⟨fun t => ?_, fun b => ?_⟩
  · have hbuf := dropWhile_zero_foldl_bufferMulAdd (by decide) 58 symbolDigit _
      (base58Number_lt_buffer (t.drop (leadingCount (sym 0) t)))
    exact congrArg (fun ds : List Nat => if t.any (fun c => (idx c).isNone) then Except.error TextError.b58Char
      else Except.ok (List.replicate (leadingCount (sym 0) t) 0x00 ++ ds.map (BitVec.ofNat 8))) hbuf
  · have hbuf := dropWhile_zero_foldl_bufferMulAdd (by decide) 256 BitVec.toNat _
      (intBe_lt_buffer (b.drop (leadingCount 0x00 b)))
    exact congrArg (fun ds => List.replicate (leadingCount 0x00 b) (sym 0) ++ ds.map sym) hbuf

/-- Settles O52: `length_base58Encode_le` and `length_le_of_base58Decode`. -/
theorem base58Lengths : Obligations.Base58Lengths :=
  ⟨length_base58Encode_le, fun _ _ => length_le_of_base58Decode⟩

/-- Settles O53: `decodeCheck_eq_ok_iff`, whose first consequence is the law. -/
theorem base58CheckRoundTrip : Obligations.Base58CheckRoundTrip :=
  ⟨fun _ => decodeCheck_eq_ok_iff.mpr rfl, fun _ _ => decodeCheck_eq_ok_iff⟩

/-- Settles O35: B58_ENC is a command from SRC to DST that never fails with a data error. -/
theorem b58EncWritesText : Obligations.B58EncWritesText := by
  refine ⟨?command, rfl, fun n => ?zeros, by decide +kernel, by decide +kernel⟩
  case command =>
    exact encodeCommand_of_decodeCommand
      (decodeCommand_of_computeOf rfl allows_b58Max_iff fun _ _ _ => rfl)
  case zeros =>
    calc base58Encode (List.replicate n 0x00) = base58Encode (List.replicate n 0x00 ++ []) := by rw [List.append_nil]
      _ = List.replicate n (sym 0) ++ [] := base58Encode_replicate_append (r := []) nofun n
      _ = List.replicate n 0x31 := List.append_nil _

/-- Settles O36: the frame (`decodeCommand_of_computeOf`), which texts decode (`exists_base58Decode_iff`), and
that the bytes fit where the text's length does (`length_le_of_base58Decode`). -/
theorem b58DecWritesBytes : Obligations.B58DecWritesBytes := by
  have hcommand : DecodeCommand .b58Dec (fun s => s.operands.srcLen.toNat ≤ s.params.b58Max)
      (withCodes base58Decode) :=
    decodeCommand_of_computeOf rfl allows_b58Max_iff fun _ t _ => textResult_eq_map base58Decode t
  refine ⟨hcommand, fun _ => exists_base58Decode_iff.symm, fun _ => base58Decode_of_idx_eq_none,
    fun s hl hs hsym hd => ?completes, by decide +kernel, by decide +kernel, by decide +kernel, by decide +kernel,
    by decide, by decide +kernel⟩
  case completes =>
    obtain ⟨b, hb⟩ := exists_base58Decode_iff.mpr hsym
    have hlen : b.length ≤ s.operands.srcLen.toNat := s.srcBytes_length ▸ length_le_of_base58Decode hb
    have ⟨_, _, _, _, hwrites⟩ := hcommand s
    exact ⟨b, hb, hwrites b hl hs (by rw [withCodes, hb]) ((Nat.add_le_add_left hlen _).trans hd)⟩

/-- Settles O37: B58_CHECKSUM is a command from SRC to DST with no limit (`hashCommand_of_computeOf`). -/
theorem b58ChecksumWritesFourBytes : Obligations.B58ChecksumWritesFourBytes :=
  ⟨hashCommand_of_computeOf rfl (fun _ _ _ => rfl) base58Checksum_length, by decide +kernel, by decide +kernel⟩

/-- Settles O38: B58CHK_ENC is B58_ENC's frame with its own limit, and `leadingCount_base58Encode` counts the
leading '1' symbols. -/
theorem b58chkEncWritesText : Obligations.B58chkEncWritesText := by
  refine ⟨?command, fun p => leadingCount_base58Encode _, by decide +kernel, by decide +kernel, by decide +kernel⟩
  case command =>
    exact encodeCommand_of_decodeCommand
      (decodeCommand_of_computeOf rfl allows_b58MaxLess4_iff fun _ _ _ => rfl)

/-- Settles O39: B58CHK_DEC fails with the code of `DecodeCheck`'s first bad check (`textResult_eq_map`). -/
theorem b58chkDecWritesPayload : Obligations.B58chkDecWritesPayload :=
  ⟨decodeCommand_of_computeOf rfl allows_b58Max_iff fun _ t _ => textResult_eq_map decodeCheck t,
    by decide +kernel, by decide +kernel, by decide +kernel, by decide +kernel, by decide +kernel⟩

end Sys2Proof.Machine
end

section
/-! SUPPORT. Import commands (R111, R120) and exact length limits (R55), in the frame (R54). -/

namespace Sys2Proof.Machine

open Sys2Proof.Claims

variable {i : Instr} {limit : State → Prop}

/-- The limit column's exact lengths (R55). -/
theorem allows_exactly_iff (n : Nat) (s : State) :
    (LengthLimit.exactly n).allows s.params s.operands.srcLen.toNat = true ↔ s.operands.srcLen.toNat = n :=
  beq_iff_eq

/-- An encode command is a statement about its function on the sources its limit allows. -/
theorem encodeCommand_congr {f g : List Byte → List Byte} (h : EncodeCommand i limit f)
    (hfg : ∀ s, limit s → f s.srcBytes = g s.srcBytes) : EncodeCommand i limit g := by
  intro s
  obtain ⟨hlength, hrangeIn, hrangeOut, hwrites⟩ := h s
  exact ⟨hlength, hrangeIn, fun hl => hfg s hl ▸ hrangeOut hl, fun hl => hfg s hl ▸ hwrites hl⟩

/-- A command whose form is SRC to DST with a length limit, and that computes 32 bytes and flags from SRC
alone. It has no data error: a bad source is told by the flags (90_conflicts.md C3). -/
theorem importCommand_of_computeOf {l : LengthLimit} {f : List Byte → List Byte × ResFlags}
    (hform : operandForm i = { limit := l, src := true, dst := true })
    (hlimit : ∀ s : State, l.allows s.params s.operands.srcLen.toNat = true ↔ limit s)
    (hf : ∀ s src aux, computeOf i s src aux = .ok { out := (f src).1, flags := (f src).2 })
    (hlen : ∀ s, limit s → (f s.srcBytes).1.length = 32) : ImportCommand i limit f := by
  intro s
  have hdst : (operandForm i).dst = true := by rw [hform]
  have hm : (operandForm i).misused s = false := by rw [hform]; rfl
  have hl : (operandForm i).limit.allows s.params s.operands.srcLen.toNat = true ↔ limit s := by
    rw [hform]; exact hlimit s
  have hr : computeOf i s (s.inputs (operandForm i)).1 (s.inputs (operandForm i)).2 =
      .ok { out := (f s.srcBytes).1, flags := (f s.srcBytes).2 } := by
    rw [hf, State.inputs, hform]; rfl
  have hready (h : limit s) (hs : SrcFits s) : (operandForm i).Ready s :=
    { phase := hm, length := hl.mpr h, src := fun _ => inDmem_iff.mpr hs, aux := by rw [hform]; nofun }
  refine ⟨fun h => ?length, fun h hs => ?rangeIn, fun h hs hd => ?rangeOut, fun h hs hd => ⟨hlen s h, ?writes⟩⟩
  case length => exact failsWith_of_execute (State.execute_length hm (Bool.not_eq_true _ ▸ mt hl.mp h))
  case rangeIn => exact failsWith_rangeIn_of_src hm (hl.mpr h) (by rw [hform]) hs
  case rangeOut => exact failsWith_rangeOut (hready h hs) hr hdst (by rwa [hlen s h])
  case writes =>
    have hc := commitsTo_of_ready (hready h hs) hr fun _ => by rwa [hlen s h]
    exact ⟨_, hc.exec, hc.wrote_output, rfl, rfl⟩

end Sys2Proof.Machine
end

section
/-! SUPPORT. WIF (R109–R112): how long a text with a given first byte is, and what each check of the import
answers. -/

namespace Sys2Proof.Machine

open Sys2Proof.Claims

variable {valid : List Byte → Bool} {t p k r : List Byte} {v : Byte} {c : Bool}

/-! ### The text of a payload -/

/-- `int_be` by its first byte (R9). -/
theorem intBe_cons (v : Byte) (r : List Byte) : intBe (v :: r) = v.toNat * 256 ^ r.length + intBe r := by
  rw [intBe_eq, intBe_eq, List.map_cons, ofDigits_reverse_cons, List.length_map]
  ring

/-- The number of digits of a number is its place between the powers of the base. -/
theorem length_digitsOf_eq {base n w : Nat} (hb : 1 < base) (hlo : base ^ w ≤ n) (hhi : n < base ^ (w + 1)) :
    (digitsOf base n).length = w + 1 := by
  have hlt : w < (digitsOf base n).length := by
    rw [digitsOf_eq hb, List.length_reverse]
    exact (Nat.lt_digits_length_iff hb n).mpr hlo
  exact Nat.le_antisymm (length_digitsOf_le hb hhi) hlt

/-- `Encode` of bytes that do not start with zero is their number's digits (R96). -/
theorem base58Encode_of_head_ne_zero (h : p.head? ≠ some 0) :
    base58Encode p = (digitsOf 58 (intBe p)).map sym :=
  base58Encode_replicate_append h 0

/-- A first byte bounds the number from both sides, and so fixes the text's length (R109). -/
theorem length_base58Encode_cons (hv : v ≠ 0) {w : Nat} (hlo : 58 ^ w ≤ v.toNat * 256 ^ r.length)
    (hhi : (v.toNat + 1) * 256 ^ r.length ≤ 58 ^ (w + 1)) : (base58Encode (v :: r)).length = w + 1 := by
  rw [base58Encode_of_head_ne_zero (by simpa using hv), List.length_map]
  have hr := intBe_lt r
  apply length_digitsOf_eq (by decide) <;> rw [intBe_cons]
  · exact hlo.trans (Nat.le_add_right _ _)
  · rw [Nat.add_one_mul] at hhi
    omega

/-- A text has no leading '1' when its bytes have no leading zero (R100). -/
theorem head?_base58Encode_ne (h : p.head? ≠ some 0) : (base58Encode p).head? ≠ some (sym 0) := by
  have hz : leadingCount (sym 0) (base58Encode p) = 0 := by
    rw [leadingCount_base58Encode]
    exact leadingCount_replicate_append h 0
  simpa [hz] using head?_drop_leadingCount (sym 0) (base58Encode p)

theorem wifExport_eq (k : List Byte) (c : Bool) : wifExport k c =
    base58Encode (Config.wifVersion :: (k ++ (if c then [0x01] else []) ++ base58Checksum (wifPayload k c))) := by
  simp [wifExport, encodeCheck, wifPayload]

/-- 0x80 and 36 bytes are 51 symbols, 0x80 and 37 bytes are 52 (R109). -/
theorem length_wifExport (hk : k.length = 32) (c : Bool) : (wifExport k c).length = if c then 52 else 51 := by
  rw [wifExport_eq]
  cases c <;> apply length_base58Encode_cons (by decide) <;> simp [hk, Config.wifVersion]

/-- The version byte is not zero, so the text has no leading '1' (R109). -/
theorem head?_wifExport_ne (k : List Byte) (c : Bool) : (wifExport k c).head? ≠ some 0x31 := by
  rw [wifExport_eq]
  exact head?_base58Encode_ne (by simp [Config.wifVersion])

/-! ### The checks of `WifImport`, in their order (R111) -/

theorem wifImport_of_decodeCheck_error {e : TextError} (h : decodeCheck t = .error e) :
    wifImport valid t = invalidKey e.wifDiag := by
  simp only [wifImport, h]

theorem wifImport_of_length (h : decodeCheck t = .ok p) (hl : p.length ≠ 33 ∧ p.length ≠ 34) :
    wifImport valid t = invalidKey .wifLength := by
  simp only [wifImport, h, if_pos hl]

theorem wifImport_of_version (h : decodeCheck t = .ok p) (hl : p.length = 33 ∨ p.length = 34)
    (hv : p.head? ≠ some Config.wifVersion) : wifImport valid t = invalidKey .wifVersion := by
  have hl' : ¬ (p.length ≠ 33 ∧ p.length ≠ 34) := by omega
  have hv' : p.getD 0 0 ≠ Config.wifVersion := by
    cases p with
    | nil => simp at hl
    | cons v r => simpa using hv
  simp only [wifImport, h, if_neg hl', if_pos hv']

theorem wifImport_of_marker (h : decodeCheck t = .ok p) (hl : p.length = 34)
    (hv : p.head? = some Config.wifVersion) (hm : p.getLast? ≠ some 0x01) :
    wifImport valid t = invalidKey .wifMarker := by
  have hl' : ¬ (p.length ≠ 33 ∧ p.length ≠ 34) := by omega
  have hv' : ¬ p.getD 0 0 ≠ Config.wifVersion := by simp [← List.head?_eq_getElem?, hv]
  have hm' : p.length = 34 ∧ p.getD 33 0 ≠ 0x01 := by
    refine ⟨hl, fun h33 => hm ?_⟩
    rw [List.getLast?_eq_getElem?, hl, ← h33, List.getD_eq_getElem _ _ (by omega)]
    simp [hl]
  simp only [wifImport, h, if_neg hl', if_neg hv', if_pos hm']

/-- Past the checks of the payload, the Curve Engine decides (R111). -/
theorem wifImport_of_payload (h : decodeCheck t = .ok (wifPayload k c)) (hk : k.length = 32) :
    wifImport valid t = if valid k then (k, ⟨true, c, .ok⟩) else invalidKey .scalarInvalid := by
  have hkey : k.take 32 = k := List.take_of_length_le hk.le
  cases c <;> cases hv : valid k <;> simp [wifImport, h, wifPayload, hk, hkey, hv]

/-- The import always gives 32 bytes, the sentinel or the scalar (R111). -/
theorem length_wifImport (valid : List Byte → Bool) (t : List Byte) : (wifImport valid t).1.length = 32 := by
  obtain ⟨d, hd⟩ | ⟨k, c, hk, hv, rfl⟩ := wifImport_cases valid t
  · rw [hd]; exact List.length_replicate
  · rwa [wifImport_wifExport hk hv]

/-- `ValidateScalar` refuses the zero scalar, whatever the Curve Engine answers (R6). -/
theorem validateScalar_replicate_zero (n : Nat) : validateScalar (List.replicate n 0) = false := by
  rw [Bool.eq_false_iff, ne_eq, validateScalar_iff]
  rintro ⟨⟨x, hx, hne⟩, -⟩
  exact hne (List.mem_replicate.mp hx).2

end Sys2Proof.Machine
end

section
/-! SUPPORT. The key record (R118–R120). -/

namespace Sys2Proof.Machine

/-- The import of a record by its parts, with its flags (R118, R120). -/
theorem keyRecordImport_append_eq (valid : List Byte → Bool) (vb cb : Byte) {k : List Byte} (hk : k.length = 32) :
    keyRecordImport valid ([vb, cb] ++ k) =
      (k, { keyValid := decide (vb ≠ 0) && valid k
            keyCompressed := decide (cb ≠ 0)
            diag := if vb = 0 then .storedInvalid else if valid k = false then .scalarInvalid else .ok }) := by
  have hkey : k.take 32 = k := List.take_of_length_le hk.le
  simp [keyRecordImport, hkey, bne, beq_eq_decide]

theorem length_keyRecordImport (valid : List Byte → Bool) {r : List Byte} (h : r.length = 34) :
    (keyRecordImport valid r).1.length = 32 := by
  obtain ⟨vb, cb, k, rfl, hk⟩ := exists_record_of_length h
  rwa [keyRecordImport_append_eq valid vb cb hk]

end Sys2Proof.Machine
end

section
/-! SUPPORT. One DER INTEGER (R114, R116): what is written of a number, and that a field is read by its value. -/

namespace Sys2Proof.Machine

variable {f x y : List Byte} {l : Bool}

/-! ### Byte sequences by their numbers -/

/-- Leading zero bytes do not count (R9). -/
theorem intBe_replicate_append (z : Nat) (b : List Byte) : intBe (List.replicate z 0 ++ b) = intBe b := by
  induction z with
  | zero => rfl
  | succ z ih => rw [List.replicate_succ, List.cons_append, intBe_cons, ih]; simp

/-- Sequences of one length with one number are equal (R9). -/
theorem eq_of_intBe_eq (hl : x.length = y.length) (h : intBe x = intBe y) : x = y := by
  have hlt (b : List Byte) : ∀ d ∈ (b.map BitVec.toNat).reverse, d < 256 := by simpa using fun c _ => c.isLt
  have hinj : Function.Injective (List.map (BitVec.toNat (w := 8))) :=
    List.map_injective_iff.mpr fun _ _ => BitVec.eq_of_toNat_eq
  rw [intBe_eq, intBe_eq] at h
  exact hinj (List.reverse_injective (Nat.ofDigits_inj_of_len_eq (by decide) (by simpa using hl) (hlt x) (hlt y) h))

@[simp] theorem intBe_lpad32 (b : List Byte) : intBe (lpad32 b) = intBe b :=
  intBe_replicate_append _ b

theorem length_lpad32 (h : x.length ≤ 32) : (lpad32 x).length = 32 := by
  rw [lpad32, List.length_append, List.length_replicate]
  omega

/-! ### `DerInt` -/

theorem dropWhile_eq_drop_leadingCount (z : Byte) (x : List Byte) :
    x.dropWhile (· == z) = x.drop (leadingCount z x) := by
  have h := List.takeWhile_append_dropWhile (p := (· == z)) (l := x)
  calc x.dropWhile (· == z)
      = (x.takeWhile (· == z) ++ x.dropWhile (· == z)).drop (leadingCount z x) := (List.drop_left' rfl).symm
    _ = x.drop (leadingCount z x) := by rw [h]

/-- The bytes of a number without leading zeros, one zero byte for 0: `DerInt` before its padding (R114). -/
def derTrim (x : List Byte) : List Byte :=
  if x.drop (leadingCount 0x00 x) = [] then [0x00] else x.drop (leadingCount 0x00 x)

theorem derInt_eq (l : Bool) (x : List Byte) :
    derInt l x = if l = false ∧ 0x80 ≤ ((derTrim x).headD 0).toNat then 0x00 :: derTrim x else derTrim x := by
  unfold derInt derTrim
  rw [dropWhile_eq_drop_leadingCount]
  cases x.drop (leadingCount 0x00 x) <;> simp

/-- The trimmed bytes are one zero byte, or start with another byte. -/
theorem derTrim_cases (x : List Byte) : derTrim x = [0x00] ∨ ∃ b r, derTrim x = b :: r ∧ b ≠ 0 := by
  have hhead := head?_drop_leadingCount 0x00 x
  unfold derTrim
  cases hx : x.drop (leadingCount 0x00 x) with
  | nil => exact .inl rfl
  | cons b r =>
    rw [hx] at hhead
    exact .inr ⟨b, r, rfl, fun hb => hhead (congrArg some hb)⟩

theorem intBe_derTrim (x : List Byte) : intBe (derTrim x) = intBe x := by
  have hx : intBe (x.drop (leadingCount 0x00 x)) = intBe x := by
    conv_rhs => rw [← replicate_leadingCount_append_drop 0x00 x, intBe_replicate_append]
  unfold derTrim
  split
  next h0 => rw [← hx, h0]; rfl
  next => exact hx

theorem length_derTrim (h : x.length = 32) : 1 ≤ (derTrim x).length ∧ (derTrim x).length ≤ 32 := by
  unfold derTrim
  split
  next => decide
  next hne =>
    have hpos := List.length_pos_iff.mpr hne
    rw [List.length_drop] at hpos ⊢
    omega

/-- Padding does not change the number. -/
theorem intBe_derInt (l : Bool) (x : List Byte) : intBe (derInt l x) = intBe x := by
  rw [derInt_eq]
  split
  · exact (intBe_replicate_append 1 (derTrim x)).trans (intBe_derTrim x)
  · exact intBe_derTrim x

theorem length_derInt (l : Bool) (h : x.length = 32) :
    1 ≤ (derInt l x).length ∧ (derInt l x).length ≤ if l then 32 else 33 := by
  obtain ⟨hpos, hle⟩ := length_derTrim h
  rw [derInt_eq]
  split
  next hpad => exact ⟨Nat.succ_pos _, by rw [hpad.1]; exact Nat.succ_le_succ hle⟩
  next => exact ⟨hpos, hle.trans (by cases l <;> decide)⟩

theorem length_derInt_le (l : Bool) (h : x.length = 32) : (derInt l x).length ≤ 33 :=
  (length_derInt l h).2.trans (by cases l <;> decide)

/-- A padded field is never read as negative (R114). -/
theorem headD_derInt_lt (x : List Byte) : ((derInt false x).headD 0).toNat < 0x80 := by
  rw [derInt_eq]
  split
  next => simp
  next h => simpa using h

/-- A zero byte in front is there only to keep a high bit from the sign (R114). -/
theorem derInt_zero_cons {c : Byte} {r : List Byte} (h : derInt l x = 0 :: c :: r) :
    l = false ∧ 0x80 ≤ c.toNat := by
  rw [derInt_eq] at h
  split at h
  next hpad =>
    rw [(List.cons.inj h).2] at hpad
    exact hpad
  next =>
    obtain h0 | ⟨b, r', hb, hne⟩ := derTrim_cases x
    · simp [h0] at h
    · rw [hb] at h
      exact absurd (List.cons.inj h).1 hne

/-! ### A field as `DerParse` reads it -/

/-- A field of at most 33 bytes is read as the 32 bytes of its number: a 33-byte field of a number below 2^256
starts with zero (R116). -/
theorem derField_of_intBe_eq (hf : f.length ≤ 33) (hx : x.length = 32) (h : intBe f = intBe x) :
    derField f = some x := by
  have hread : ∀ g : List Byte, g.length ≤ 32 → intBe g = intBe x → lpad32 g = x := fun g hg h =>
    eq_of_intBe_eq ((length_lpad32 hg).trans hx.symm) ((intBe_lpad32 g).trans h)
  obtain hlt | h33 := Nat.lt_or_eq_of_le hf
  · have hdrop : f.drop (f.length - 32) = f := by rw [Nat.sub_eq_zero_of_le (by omega), List.drop_zero]
    rw [derField, if_neg (by omega), hdrop, hread f (by omega) h]
  obtain ⟨b, g, rfl⟩ := List.exists_cons_of_length_eq_add_one h33
  have hg : g.length = 32 := by simpa using h33
  obtain rfl : b = 0 := by
    have hlt := intBe_lt x
    rw [← h, intBe_cons, hg, hx] at hlt
    exact BitVec.eq_of_toNat_eq (by simp; omega)
  have hx' : lpad32 g = x := hread g hg.le ((intBe_replicate_append 1 g).symm.trans h)
  simp [derField, hg, hx']

theorem length_of_derField (h : derField f = some x) : x.length = 32 := by
  unfold derField at h
  split at h
  · cases h
  · obtain rfl := Option.some.inj h
    exact length_lpad32 (by rw [List.length_drop]; omega)

/-- `DerParse` reads back the number `DerInt` writes (R114, R116). -/
theorem derField_derInt (l : Bool) (hx : x.length = 32) : derField (derInt l x) = some x :=
  derField_of_intBe_eq (length_derInt_le l hx) hx (intBe_derInt l x)

end Sys2Proof.Machine
end

section
/-! SUPPORT. The DER signature (R113, R115, R116): its two fields, written and read. -/

namespace Sys2Proof.Machine

open Sys2Proof.Claims

variable {b x r s R S : List Byte}

/-- The DER bytes around two INTEGER fields (R113). -/
def derSequence (R S : List Byte) : List Byte :=
  [0x30, BitVec.ofNat 8 (4 + R.length + S.length), 0x02, BitVec.ofNat 8 R.length] ++ R ++
    ([0x02, BitVec.ofNat 8 S.length] ++ S)

theorem derEncode_eq (l : Bool) (r s : List Byte) : derEncode l r s = derSequence (derInt l r) (derInt l s) :=
  List.append_assoc ..

theorem length_derSequence (R S : List Byte) : (derSequence R S).length = 6 + R.length + S.length := by
  simp [derSequence]
  omega

/-- Past its first field, a sequence is the tag, the length and the bytes of the second. -/
theorem derSequence_drop (R S : List Byte) :
    (derSequence R S).drop (4 + R.length) = 0x02 :: BitVec.ofNat 8 S.length :: S :=
  List.drop_left' (by simp; omega)

/-- The bytes of a sequence where `DerParse` looks for them. -/
theorem derSequence_second (R S : List Byte) :
    (derSequence R S).getD (4 + R.length) 0 = 0x02 ∧
    (derSequence R S).getD (5 + R.length) 0 = BitVec.ofNat 8 S.length ∧
    (derSequence R S).drop (6 + R.length) = S := by
  have hget (k : Nat) : (derSequence R S).getD (k + (4 + R.length)) 0 =
      (0x02 :: BitVec.ofNat 8 S.length :: S).getD k 0 := by
    rw [← derSequence_drop R S, List.getD_eq_getElem?_getD, List.getD_eq_getElem?_getD, List.getElem?_drop,
      Nat.add_comm]
  refine ⟨?_, ?_, ?_⟩
  · simpa using hget 0
  · rw [show 5 + R.length = 1 + (4 + R.length) by omega, hget]; rfl
  · rw [show 6 + R.length = 4 + R.length + 2 by omega, ← List.drop_drop, derSequence_drop]; rfl

/-- Two fields of legal lengths parse to the numbers they are read as (R116). -/
theorem derParse_derSequence (hR : 1 ≤ R.length ∧ R.length ≤ 33) (hS : 1 ≤ S.length ∧ S.length ≤ 33)
    (hr : derField R = some r) (hs : derField S = some s) : derParse (derSequence R S) = some (r ++ s) := by
  have htoNat (n : Nat) (h : n < 256) : (BitVec.ofNat 8 n).toNat = n := by
    rw [BitVec.toNat_ofNat, Nat.mod_eq_of_lt h]
  have hlen := length_derSequence R S
  have hseq : (derSequence R S).getD 0 0 = 0x30 := rfl
  have hseqlen : ((derSequence R S).getD 1 0).toNat = 4 + R.length + S.length := htoNat _ (by omega)
  have hint : (derSequence R S).getD 2 0 = 0x02 := rfl
  have hRlen : ((derSequence R S).getD 3 0).toNat = R.length := htoNat _ (by omega)
  have hRbytes : ((derSequence R S).drop 4).take R.length = R := by simp [derSequence]
  obtain ⟨hint', hSlen, hSbytes⟩ := derSequence_second R S
  have hSlen' : (BitVec.ofNat 8 S.length).toNat = S.length := htoNat _ (by omega)
  simp only [derParse, hlen, hseq, hseqlen, hint, hRlen, hint', hSlen, hSlen', hRbytes, hSbytes,
    List.take_length, hr, hs]
  rw [if_neg (by omega), if_neg (by simp; omega), if_neg (by simp), if_neg (by omega), if_neg (by simp),
    if_neg (by omega)]

/-- What parses is 32 bytes of each number (R116). -/
theorem length_of_derParse (h : derParse b = some x) : x.length = 64 := by
  unfold derParse at h
  dsimp only at h
  iterate 6
    split at h
    · cases h
  split at h
  next hr hs =>
    obtain rfl := Option.some.inj h
    rw [List.length_append, length_of_derField hr, length_of_derField hs]
  next => cases h

/-- `DerParse` reads back every signature DER_ENC writes (R117). -/
theorem derParse_derEncode (l : Bool) (hr : r.length = 32) (hs : s.length = 32) :
    derParse (derEncode l r s) = some (r ++ s) := by
  rw [derEncode_eq]
  exact derParse_derSequence ⟨(length_derInt l hr).1, length_derInt_le l hr⟩
    ⟨(length_derInt l hs).1, length_derInt_le l hs⟩ (derField_derInt l hr) (derField_derInt l hs)

/-- A signature has 8 to 72 bytes, or 70 with LEGACY (R115). -/
theorem length_derEncode (l : Bool) (hr : r.length = 32) (hs : s.length = 32) :
    8 ≤ (derEncode l r s).length ∧ (derEncode l r s).length ≤ if l then 70 else 72 := by
  obtain ⟨hr1, hr2⟩ := length_derInt l hr
  obtain ⟨hs1, hs2⟩ := length_derInt l hs
  rw [derEncode_eq, length_derSequence]
  refine ⟨by omega, ?_⟩
  cases l <;> simp only [Bool.false_eq_true, ↓reduceIte] at hr2 hs2 ⊢ <;> omega

/-- `Compute` of DER_DEC, with its code (R117). -/
theorem derResult_eq_map (b : List Byte) : derResult (derParse b) = (derWithCode b).map fun x => { out := x } := by
  rw [derWithCode]
  cases derParse b <;> rfl

end Sys2Proof.Machine
end

section
/-! The statements of 45_keyformats.md. -/

namespace Sys2Proof.Machine

open Sys2Proof.Claims

/-- Settles O40: WIF_ENC is a command from SRC to DST that never fails with a data error, and the text's length
follows from its version byte (`length_wifExport`). -/
theorem wifEncWritesText : Obligations.WifEncWritesText := by
  refine ⟨fun c => ?command, fun k c hk => length_wifExport hk c, by decide +kernel, by decide +kernel⟩
  case command =>
    exact encodeCommand_of_decodeCommand
      (decodeCommand_of_computeOf rfl (allows_exactly_iff 32) fun _ _ _ => rfl)

/-- Settles O41: the frame (`importCommand_of_computeOf`), and one lemma for each check of `WifImport`. -/
theorem wifDecImportsKey : Obligations.WifDecImportsKey := by
  refine ⟨?command, fun valid t => ⟨wifImport_of_decodeCheck_error, wifImport_of_decodeCheck_error,
    wifImport_of_decodeCheck_error, fun p hp => ⟨wifImport_of_length hp, wifImport_of_version hp,
      wifImport_of_marker hp, fun k hk hform => ?scalar⟩⟩,
    wifImport_of_decodeCheck_error (e := .chkShort) (by decide +kernel), validateScalar_replicate_zero 32⟩
  case command =>
    exact importCommand_of_computeOf rfl allows_b58Max_iff (fun _ _ _ => rfl)
      fun _ _ => length_wifImport validateScalar _
  case scalar =>
    obtain ⟨c, rfl, hc⟩ : ∃ c, p = wifPayload k c ∧ (p.length == 34) = c := by
      obtain rfl | rfl := hform
      · exact ⟨false, by simp [wifPayload, Config.wifVersion], by simp [hk]⟩
      · exact ⟨true, by simp [wifPayload, Config.wifVersion], by simp [hk]⟩
    rw [hc, wifImport_of_payload hp hk]
    exact ⟨fun hv => by rw [hv]; rfl, fun hv => by rw [hv]; rfl⟩

/-- Settles O42: the frame, the two lengths (`length_derEncode`), and `DerInt` as the number's bytes
(`intBe_derInt`, `length_derInt`), minimal (`derInt_zero_cons`) and without LEGACY never negative
(`headD_derInt_lt`). -/
theorem derEncWritesDer : Obligations.DerEncWritesDer := by
  refine ⟨fun l => ?command, fun l r s hr hs => ⟨_, _, rfl, rfl, derEncode_eq l r s, length_derEncode l hr hs⟩,
    fun l x hx => ?int, by decide +kernel, by decide +kernel, by decide +kernel, by decide +kernel,
    by decide +kernel, by decide +kernel⟩
  case command =>
    refine encodeCommand_congr (encodeCommand_of_decodeCommand
      (decodeCommand_of_computeOf rfl (allows_exactly_iff 64) fun _ _ _ => rfl)) fun s hl => ?_
    have hs : (s.srcBytes.drop 32).take 32 = s.srcBytes.drop 32 :=
      List.take_of_length_le (by rw [List.length_drop, s.srcBytes_length, hl])
    exact congrArg (derEncode l (s.srcBytes.take 32)) hs
  case int =>
    obtain ⟨hpos, hle⟩ := length_derInt l hx
    refine ⟨intBe_derInt l x, hpos, hle, ?_, ?_⟩
    · rintro rfl
      exact headD_derInt_lt x
    · rintro b c rest h rfl
      exact derInt_zero_cons h

/-- Settles O43: the frame, with `length_of_derParse` and the round trip `derParse_derEncode`. -/
theorem derDecWritesSignature : Obligations.DerDecWritesSignature :=
  ⟨decodeCommand_of_computeOf rfl (fun _ => iff_true_intro rfl) fun _ b _ => derResult_eq_map b,
    fun _ _ => length_of_derParse, fun l _ _ => derParse_derEncode l,
    by decide +kernel, by decide +kernel, by decide +kernel, by decide +kernel, by decide +kernel, by decide +kernel,
    by decide +kernel⟩

/-- Settles O44: KEYREC_ENC is a command from SRC to DST that never fails with a data error. -/
theorem keyrecEncWritesRecord : Obligations.KeyrecEncWritesRecord := by
  refine ⟨fun v c => ?command, fun v c k hk => by simp [keyRecord, hk], by decide +kernel⟩
  case command =>
    exact encodeCommand_of_decodeCommand
      (decodeCommand_of_computeOf rfl (allows_exactly_iff 32) fun _ _ _ => rfl)

/-- Settles O45: the frame (`importCommand_of_computeOf`), and the import by the record's parts
(`keyRecordImport_append_eq`). -/
theorem keyrecDecImportsKey : Obligations.KeyrecDecImportsKey := by
  have hzero : be 34 (0x0101 <<< 256) = [0x01, 0x01] ++ List.replicate 32 0 := by decide +kernel
  have htwo : be 34 (0x0101 <<< 256 + 2) = [0x01, 0x01] ++ be 32 2 := by decide +kernel
  refine ⟨?command, fun valid vb cb k hk => keyRecordImport_append_eq valid vb cb hk, ?zero, fun valid hv => ?two⟩
  case command =>
    exact importCommand_of_computeOf rfl (allows_exactly_iff 34) (fun _ _ _ => rfl) fun s hl =>
      length_keyRecordImport validateScalar (s.srcBytes_length.trans hl)
  case zero =>
    rw [hzero, keyRecordImport_append_eq _ _ _ List.length_replicate, validateScalar_replicate_zero]
    decide +kernel
  case two =>
    rw [htwo, keyRecordImport_append_eq _ _ _ (by decide), hv]
    decide +kernel

/-- Settles O54: `wifImport_wifExport`, and `wifImport_cases` for the converse. -/
theorem wifRoundTrip : Obligations.WifRoundTrip := by
  refine ⟨fun valid k c hk hv => wifImport_wifExport hk hv c, fun valid t h => ?converse⟩
  case converse =>
    obtain ⟨d, hd⟩ | ⟨k, c, hk, hv, rfl⟩ := wifImport_cases valid t
    · simp [hd, invalidKey] at h
    · rw [wifImport_wifExport hk hv]
      exact ⟨hk, hv, rfl⟩

/-- Settles O55: `length_wifExport` and `head?_wifExport_ne`. -/
theorem wifTextLength : Obligations.WifTextLength := fun k hk =>
  ⟨congrArg encodeCheck (List.append_nil _), rfl, length_wifExport hk false, length_wifExport hk true,
    head?_wifExport_ne k false, head?_wifExport_ne k true⟩

end Sys2Proof.Machine
end

section
/-! SUPPORT. R125's order of errors as a relation: which code a command reports from a state, check by check, with
each check of the frame (R54) said in the words of the claims. -/

namespace Sys2Proof.Machine

open Sys2Proof.Claims

variable {i : Instr} {s t : State} {code : ErrCode}

/-! ### The checks of the frame -/

/-- The phase check of R54 fails exactly for UPDATE and FINAL on a finalized stream. -/
theorem misused_iff (i : Instr) (s : State) : (operandForm i).misused s = true ↔ Misused i s := by
  cases i <;> simp [operandForm, Form.misused, Misused]

theorem not_misused_iff (i : Instr) (s : State) : (operandForm i).misused s = false ↔ ¬ Misused i s := by
  rw [← misused_iff, Bool.not_eq_true]

/-- The limit column of R46 allows SRC_LEN exactly outside the cases of R55. -/
theorem limit_allows_iff (i : Instr) (s : State) :
    (operandForm i).limit.allows s.params s.operands.srcLen.toNat = true ↔ ¬ LengthBad i s := by
  rw [← limit_refuses_iff, Bool.not_eq_false]

/-- The SRC and AUX checks fail exactly where RANGE_IN is due (R54, R56). -/
theorem region_out_iff (i : Instr) (s : State) :
    (((operandForm i).src = true ∧ inDmem s.params s.operands.srcAddr s.operands.srcLen.toNat = false) ∨
      ((operandForm i).aux = true ∧ inDmem s.params s.operands.auxAddr s.operands.auxLen.toNat = false)) ↔
      RangeInBad i s := by
  rw [operandForm_src, operandForm_aux, inDmem_eq_false_iff, inDmem_eq_false_iff]
  rfl

/-- The four checks before `Compute` pass exactly when none of the first three errors is due. -/
theorem ready_iff (i : Instr) (s : State) :
    (operandForm i).Ready s ↔ ¬ Misused i s ∧ ¬ LengthBad i s ∧ ¬ RangeInBad i s := by
  constructor
  · rintro ⟨hphase, hlength, hsrc, haux⟩
    refine ⟨(not_misused_iff i s).mp hphase, (limit_allows_iff i s).mp hlength, fun hr => ?_⟩
    obtain ⟨hf, hout⟩ | ⟨hf, hout⟩ := (region_out_iff i s).mpr hr
    · simp [hsrc hf] at hout
    · simp [haux hf] at hout
  · rintro ⟨hm, hl, hr⟩
    obtain ⟨hsrc, haux⟩ := not_or.mp ((region_out_iff i s).not.mpr hr)
    exact {
      phase := (not_misused_iff i s).mpr hm
      length := (limit_allows_iff i s).mpr hl
      src := fun hf => by simpa [hf] using hsrc
      aux := fun hf => by simpa [hf] using haux }

/-! ### The code reported -/

/-- The code command `i` ends with from `s`, in R125's order: an error only where the ones before it are not due,
and 0 where none is. It is the frame's own code (`reports_iff`). -/
inductive Reports (i : Instr) (s : State) : ErrCode → Prop
  | misuse (hm : Misused i s) : Reports i s .misuse
  | length (hm : ¬ Misused i s) (hl : LengthBad i s) : Reports i s .length
  | rangeIn (hm : ¬ Misused i s) (hl : ¬ LengthBad i s) (hr : RangeInBad i s) : Reports i s .rangeIn
  | data {code : ErrCode} (hready : (operandForm i).Ready s)
      (he : computeOf i s (s.inputs (operandForm i)).1 (s.inputs (operandForm i)).2 = .error code) :
      Reports i s code
  | rangeOut {r : Result} (hready : (operandForm i).Ready s)
      (hc : computeOf i s (s.inputs (operandForm i)).1 (s.inputs (operandForm i)).2 = .ok r)
      (hdst : writesDst i = true) (hd : ¬ DstFits s r.out.length) : Reports i s .rangeOut
  | ok {r : Result} (hready : (operandForm i).Ready s)
      (hc : computeOf i s (s.inputs (operandForm i)).1 (s.inputs (operandForm i)).2 = .ok r)
      (hd : writesDst i = true → DstFits s r.out.length) : Reports i s .ok

/-- The frame reports the first error of R125 that is due. -/
theorem execute_reports (i : Instr) (s : State) :
    Reports i s (s.execute (operandForm i) (computeOf i s)).status.errcode := by
  rcases State.execute_cases s (operandForm i) (computeOf i s) with
    ⟨hm, he⟩ | ⟨hm, hl, he⟩ | ⟨hm, hl, hr, he⟩ | ⟨hready, code, hc, he⟩ | ⟨hready, r, hc, hdst, hd, he⟩ |
      ⟨hready, r, hc, hd, he⟩ <;> rw [he]
  · exact .misuse ((misused_iff i s).mp hm)
  · exact .length ((not_misused_iff i s).mp hm) ((limit_refuses_iff i s).mp hl)
  · exact .rangeIn ((not_misused_iff i s).mp hm) ((limit_allows_iff i s).mp hl) ((region_out_iff i s).mp hr)
  · exact .data hready hc
  · exact .rangeOut hready hc (operandForm_dst i ▸ hdst) (inDmem_eq_false_iff.mp hd)
  · exact .ok hready hc fun hdst => inDmem_iff.mp (hd (operandForm_dst i ▸ hdst))

/-- Whatever the relation reports is the frame's code: no two codes are due at once. -/
theorem Reports.errcode_execute (h : Reports i s code) :
    (s.execute (operandForm i) (computeOf i s)).status.errcode = code := by
  cases h with
  | misuse hm => rw [State.execute_misuse ((misused_iff i s).mpr hm)]; rfl
  | length hm hl =>
    rw [State.execute_length ((not_misused_iff i s).mpr hm) ((limit_refuses_iff i s).mpr hl)]; rfl
  | rangeIn hm hl hr =>
    rw [State.execute_rangeIn ((not_misused_iff i s).mpr hm) ((limit_allows_iff i s).mpr hl)
      ((region_out_iff i s).mpr hr)]; rfl
  | data hready he => rw [State.execute_ready hready, he]; rfl
  | rangeOut hready hc hdst hd =>
    rw [State.execute_ready hready, hc]
    simp [operandForm_dst, hdst, inDmem_eq_false_iff.mpr hd]
  | ok hready hc hd =>
    have hnext := (commitsTo_of_ready hready hc fun h => hd (operandForm_dst i ▸ h)).exec
    rw [← exec_next hnext]
    rfl

/-- `Reports` is the code of the next state. -/
theorem reports_iff (h : exec i s = .next t) : t.status.errcode = code ↔ Reports i s code := by
  rw [exec_next h]
  exact ⟨fun hcode => hcode ▸ execute_reports i s, Reports.errcode_execute⟩

/-! ### The errors of the frame and of the data -/

/-- The codes of the checks before `Compute` (R54). -/
def checkErrors : List ErrCode := [.misuse, .length, .rangeIn]

/-- No data error has the code of a check before `Compute` (R124). -/
theorem not_mem_dataErrors_of_mem_checkErrors (i : Instr) (h : code ∈ checkErrors) : code ∉ dataErrors i := by
  have hcheck : ∀ c ∈ [ErrCode.b58Char, .chkShort, .chkMismatch, .derFormat], c ∉ checkErrors := by decide
  have hdata : dataErrors i ⊆ [.b58Char, .chkShort, .chkMismatch, .derFormat] := by
    cases i <;> simp [dataErrors]
  exact fun hmem => hcheck code (hdata hmem) h

/-- `Compute` raises none of them. -/
theorem computeOf_error_not_mem_checkErrors {src aux : List Byte} (h : computeOf i s src aux = .error code) :
    code ∉ checkErrors := fun hcheck =>
  not_mem_dataErrors_of_mem_checkErrors i hcheck (computeOf_error_mem_dataErrors h)

/-- Any other code says that the checks passed. -/
theorem Reports.ready (h : Reports i s code) (hcode : code ∉ checkErrors) : (operandForm i).Ready s := by
  cases h with
  | misuse | length | rangeIn => exact absurd (by decide) hcode
  | data hready | rangeOut hready | ok hready => exact hready

theorem reports_misuse_iff : Reports i s .misuse ↔ Misused i s := by
  refine ⟨fun h => ?_, .misuse⟩
  cases h with
  | misuse hm => exact hm
  | data _ he => exact absurd (by decide) (computeOf_error_not_mem_checkErrors he)

theorem reports_length_iff : Reports i s .length ↔ ¬ Misused i s ∧ LengthBad i s := by
  refine ⟨fun h => ?_, fun ⟨hm, hl⟩ => .length hm hl⟩
  cases h with
  | length hm hl => exact ⟨hm, hl⟩
  | data _ he => exact absurd (by decide) (computeOf_error_not_mem_checkErrors he)

theorem reports_rangeIn_iff :
    Reports i s .rangeIn ↔ ¬ Misused i s ∧ ¬ LengthBad i s ∧ RangeInBad i s := by
  refine ⟨fun h => ?_, fun ⟨hm, hl, hr⟩ => .rangeIn hm hl hr⟩
  cases h with
  | rangeIn hm hl hr => exact ⟨hm, hl, hr⟩
  | data _ he => exact absurd (by decide) (computeOf_error_not_mem_checkErrors he)

/-- RANGE_OUT is for commands with an output (R60). -/
theorem Reports.writesDst_of_rangeOut (h : Reports i s .rangeOut) : writesDst i = true := by
  cases h with
  | rangeOut _ _ hdst => exact hdst
  | data _ he =>
    have hmem := computeOf_error_mem_dataErrors he
    cases i <;> simp [dataErrors] at hmem

/-! ### The rows of R124 -/

/-- A command that can be misused lists MISUSE. -/
theorem misuse_mem_mayRaise (h : Misused i s) : .misuse ∈ mayRaise i := by
  obtain ⟨rfl | rfl, -⟩ | ⟨rfl | rfl, -⟩ := h <;> decide

/-- A command with a length limit lists LENGTH. -/
theorem length_mem_mayRaise (h : LengthBad i s) : .length ∈ mayRaise i := by
  obtain ⟨rfl | rfl | rfl | rfl, -⟩ | ⟨rfl, -⟩ | ⟨⟨_, rfl⟩ | ⟨_, _, rfl⟩, -⟩ | ⟨⟨_, rfl⟩, -⟩ | ⟨rfl, -⟩ := h <;>
    simp [mayRaise]

/-- A command that reads a region lists RANGE_IN; AUX is read beside SRC only. -/
theorem rangeIn_mem_mayRaise (h : RangeInBad i s) : .rangeIn ∈ mayRaise i := by
  have hsrc : readsSrc i = true := by
    obtain ⟨hsrc, -⟩ | ⟨haux, -⟩ := h
    · exact hsrc
    · cases i with
      | hmacSha256 => rfl
      | _ => cases haux
  cases i with
  | nop | sha256Init | rmd160Init | sha256Final | rmd160Final => cases hsrc
  | _ => simp [mayRaise]

/-- A command that writes DST lists RANGE_OUT. -/
theorem rangeOut_mem_mayRaise (h : writesDst i = true) : .rangeOut ∈ mayRaise i := by
  cases i with
  | nop | sha256Init | rmd160Init | sha256Update | rmd160Update => cases h
  | _ => simp [mayRaise]

/-- Every data error of a command stands in its row. -/
theorem dataErrors_subset_mayRaise (i : Instr) : dataErrors i ⊆ mayRaise i := by
  cases i with
  | b58Dec | b58chkDec | derDec => simp [dataErrors, mayRaise]
  | _ => exact List.nil_subset _

/-- The code a command reports is 0 or in its row. -/
theorem Reports.mem_mayRaise (h : Reports i s code) : code = .ok ∨ code ∈ mayRaise i := by
  cases h with
  | misuse hm => exact .inr (misuse_mem_mayRaise hm)
  | length _ hl => exact .inr (length_mem_mayRaise hl)
  | rangeIn _ _ hr => exact .inr (rangeIn_mem_mayRaise hr)
  | data _ he => exact .inr (dataErrors_subset_mayRaise i (computeOf_error_mem_dataErrors he))
  | rangeOut _ _ hdst => exact .inr (rangeOut_mem_mayRaise hdst)
  | ok => exact .inl rfl

end Sys2Proof.Machine
end

section
/-! The statements of 60_exceptions.md. -/

namespace Sys2Proof.Machine

open Sys2Proof.Claims

/-- Settles O19: the next state's code is the one `Reports` gives (`reports_iff`), which is in the row
(`Reports.mem_mayRaise`). -/
theorem errorCodesPerCommand : Obligations.ErrorCodesPerCommand := fun _ _ _ h =>
  ((reports_iff h).mp rfl).mem_mayRaise

/-- Settles O21: an illegal word aborts at once; every other clause is about the code `Reports` gives
(`reports_iff`), and past the checks (`ready_iff`) that of a data error is the one `Compute` raises. -/
theorem errorPriority : Obligations.ErrorPriority := by
  refine ⟨fun v e s hv => ⟨_, runCommand_of_decode_error hv s, s.abort_failed _⟩, fun i s => ⟨_, exec_eq i s, ?_⟩⟩
  have hcode {code : ErrCode} := reports_iff (code := code) (exec_eq i s)
  have hreported := hcode.mp rfl
  refine ⟨hcode.trans reports_misuse_iff, hcode.trans reports_length_iff, hcode.trans reports_rangeIn_iff,
    fun hdata => ?dataError, fun hout => ?rangeOut, ?b58Dec, ?b58chkDec, ?derDec⟩
  case dataError =>
    exact (ready_iff i s).mp (hreported.ready fun hcheck => not_mem_dataErrors_of_mem_checkErrors i hcheck hdata)
  case rangeOut =>
    have h := hcode.mp hout
    obtain ⟨hm, hl, hr⟩ := (ready_iff i s).mp (h.ready (by decide))
    exact ⟨hm, hl, hr, h.writesDst_of_rangeOut⟩
  case b58Dec =>
    rintro rfl hl hr hsym
    have he : computeOf .b58Dec s s.srcBytes [] = .error .b58Char :=
      congrArg textResult (base58Decode_of_idx_eq_none hsym)
    exact hcode.mpr (.data ((ready_iff _ s).mpr ⟨by simp [Misused], hl, hr⟩) he)
  case b58chkDec =>
    rintro e rfl hl hr hd
    have he : computeOf .b58chkDec s s.srcBytes [] = .error e.errCode := congrArg textResult hd
    exact hcode.mpr (.data ((ready_iff _ s).mpr ⟨by simp [Misused], hl, hr⟩) he)
  case derDec =>
    rintro rfl hr hp
    have he : computeOf .derDec s s.srcBytes [] = .error .derFormat := congrArg derResult hp
    exact hcode.mpr (.data ((ready_iff _ s).mpr ⟨by simp [Misused], by simp [LengthBad], hr⟩) he)

end Sys2Proof.Machine
end

section
/-! SUPPORT. Counting compressions (R150), and the invariant and `irq` of the reset states (R27, R143). -/

namespace Sys2Proof.Machine

/-- The compression function that counts its calls. -/
def countBlock (k : Nat) (_ : List Byte) : Nat := k + 1

/-- Folding the counter over blocks adds their number. -/
theorem foldl_countBlock (bs : List (List Byte)) (k : Nat) : bs.foldl countBlock k = k + bs.length :=
  List.foldl_add_const.trans (by rw [Nat.one_mul])

theorem blocks_length (x : List Byte) : (blocks x).length = x.length / 64 := by
  rw [blocks, List.length_map, List.length_range]

/-- `Final` makes two compressions when 0x80 takes the buffer past the 56-byte mark, and one otherwise (R70). -/
theorem HashCtx.finish_countBlock (l : BitVec 64 → List Byte) (c : HashCtx Nat) :
    (c.finish countBlock l).H = if c.buf.length ≤ 55 then c.H + 1 else c.H + 2 := by
  have hp : (c.buf ++ [0x80]).length = c.buf.length + 1 := List.length_append
  by_cases hone : c.buf.length ≤ 55
  · simp only [HashCtx.finish, if_neg (show ¬ (c.buf ++ [0x80]).length > 56 by omega), if_pos hone]
    rfl
  · simp only [HashCtx.finish, if_pos (show (c.buf ++ [0x80]).length > 56 by omega), if_neg hone]
    rfl

/-- `Absorb` makes one compression for each whole block and buffers the rest (R69). -/
theorem HashCtx.Absorbed.countBlock {m : List Byte} {c : HashCtx Nat} (h : c.Absorbed countBlock 0 m) :
    c.H = m.length / 64 ∧ c.buf.length = m.length % 64 := by
  obtain ⟨hbuf, d, rfl, hd, hH⟩ := h
  rw [foldl_countBlock, blocks_length] at hH
  rw [List.length_append]
  omega

/-- Hashing `n` bytes from a fresh context: `n / 64` compressions in `Absorb`, and one or two in `Final`, as the
`n % 64` bytes left over ask for (R150). -/
theorem HashCtx.finish_absorb_countBlock (l : BitVec 64 → List Byte) (m : List Byte) :
    (((HashCtx.init 0).absorb countBlock m).finish countBlock l).H = (m.length + 8) / 64 + 1 := by
  obtain ⟨hH, hbuf⟩ := ((HashCtx.Absorbed.init countBlock 0).absorb m).countBlock
  rw [HashCtx.finish_countBlock, hH, hbuf, List.nil_append]
  split <;> omega

/-- The power-on state meets the invariant: DMEM is empty, nothing is buffered, no error stands (R143). -/
theorem State.Inv.powerOn {p : Params} (hp : p.wellFormed = true) : (State.powerOn p).Inv where
  params := hp
  dmem_wf := Memory.powerOn_wf p
  dmem_bound := nofun
  sha := .init iv256
  rmd := .init iv160
  resLen_le := Nat.zero_le _
  failed := fun h => absurd rfl h
  valid_diag := nofun

/-- With both sources disabled, `irq` is 0 (R28). -/
theorem State.irq_of_ctrl_off {s : State} (h : s.ctrl = ⟨false, false⟩) : s.irq = false := by
  simp [State.irq, h]

end Sys2Proof.Machine
end

section
/-! The statements of 70_reset_and_hazards.md. -/

namespace Sys2Proof.Machine

/-- Settles O47: `HashCtx.finish_absorb_countBlock` and `HashCtx.finish_countBlock`, with `countBlock` written out. -/
theorem compressionCount : Obligations.CompressionCount :=
  ⟨HashCtx.finish_absorb_countBlock, fun lenField c _ => c.finish_countBlock lenField⟩

/-- Settles O5: both resets are read off field by field; soft reset leaves the parameters, which CAP_DMEM and
CAP_B58 read, and with both sources disabled `irq` is 0 (`State.irq_of_ctrl_off`). -/
theorem resetValues : Obligations.ResetValues := by
  refine ⟨⟨0, rfl⟩, fun p => ?powerOn, fun s => ?softReset⟩
  case powerOn =>
    exact ⟨rfl, Ctrl.word_off, rfl, State.powerOn_statusWord p, rfl, rfl, ResFlags.word_zero, rfl, rfl,
      Memory.read_nil, rfl, rfl, rfl, State.irq_of_ctrl_off rfl⟩
  case softReset =>
    have hconstants : ∀ r ∈ [Reg.id, .capDmem, .capB58], s.softReset.readRegister r = s.readRegister r := by
      simp [State.readRegister]
    exact ⟨rfl, rfl, rfl, rfl, rfl, rfl, rfl, rfl, fun _ => rfl, hconstants, State.irq_of_ctrl_off rfl⟩

/-- Settles O57: the power-on state meets the invariant (`State.Inv.powerOn`), and R5's defaults are legal. -/
theorem invariantAtReset : Obligations.InvariantAtReset :=
  ⟨State.Inv.powerOn (by decide), fun _ => State.Inv.powerOn⟩

end Sys2Proof.Machine
end
